-- ==== Sys2Proof/Word.lean ====
section
/-! DEFINITION. The widths of the block's registers, the direction of an address step and the two edges of the
enable pin (00_scope.md R9, R11, R14; 10_state.md R34). -/

namespace Sys2Proof

/-- IR, DR, RB, DB and every memory cell are 8 bits wide (R9). -/
abbrev Byte := BitVec 8

/-- The address counter AC is 7 bits wide (R9, R41). -/
abbrev Addr := BitVec 7

/-- R14: "Direction values are `inc` and `dec`". -/
inductive Dir where
  | inc
  | dec
  deriving DecidableEq, Repr, Inhabited

/-- R34: a change of E from false to true is a rising edge, from true to false a falling edge. -/
inductive Edge where
  | rising
  | falling
  deriving DecidableEq, Repr, Inhabited

end Sys2Proof
end

