-- ==== Sys2Proof/Config.lean ====
section
/-! DEFINITION. The parameters of 00_scope.md R10, all of them arguments that the model takes: plain data carried in State
and written by nothing (10_state.md R30). For `State.reset` the parameters that the spec leaves OPEN (92_eei_decisions.md
D30, D31, D32) are opaque constants, of which nothing can be proved (log 2, log 3); those for which the spec decides a
value stand at it (`Machine.decided`, log 6 to log 11). -/

namespace Sys2Proof
namespace Config

/-- CLAMP_CMP (R10, R230, R236): does a value above TOP snap to 0, or one at TOP already. -/
inductive ClampCmp where
  | gt
  | ge
  deriving DecidableEq, Repr, Inhabited

/-- FOUR_BIT_DATA_READ (R10, R158, R174). -/
inductive DataReadMode where
  | wholeByte
  | split
  deriving DecidableEq, Repr, Inhabited

/-- FONT, CURSOR_OV and BLINK_OV (R10, R93 to R96), total on the index ranges of R10 by their types: for each font mode 256
entries of rows 0..15, and each overlay's rows 0..10. A row is 8 bits, of which the low GW are dots. -/
structure FontStore where
  glyphs8  : Vector (Vector Byte 16) 256
  glyphs11 : Vector (Vector Byte 16) 256
  cursor8  : Vector Byte 11
  cursor11 : Vector Byte 11
  blink8   : Vector Byte 11
  blink11  : Vector Byte 11
  deriving DecidableEq, Repr, Inhabited

/-- The parameters of R10 that have a decided value. LOAD_DIR is its table: row `old` has bit `new` set where the
direction is inc. EXT_CG_BASE is its table over the 256 codes. -/
structure Params where
  glyphWidth           : Nat
  loadDirUp            : Vector (BitVec 128) 128
  clampCmp             : ClampCmp
  fourBitDataRead      : DataReadMode
  cursorWhenDisplayOff : Bool
  extCgThreshold       : Nat
  extCgBase            : Vector Nat 256
  deriving DecidableEq, Repr, Inhabited

/-- What construction supplies and nothing ever writes (R30, R93). BLINK_INIT, the remaining parameter, is a draw for the
state element BLINK (R59) and is an argument of construction. -/
structure Cfg where
  font         : FontStore
  defaultCgram : Vector Byte 64
  params       : Params
  deriving DecidableEq, Repr, Inhabited

/-- FREE VALUE (log 2): the font store that `State.reset` was constructed with. -/
opaque suppliedFont : FontStore

/-- FREE VALUE (log 2): the DEFAULT_CGRAM that `State.reset` was constructed with. -/
opaque suppliedCgram : Vector Byte 64

/-- FREE VALUE (log 3): BLINK_INIT, "a draw (both values admitted)" (D32). -/
opaque blinkInit : Bool

end Config
end Sys2Proof
end

