-- ==== Sys2Proof/Syntax.lean ====
section
/-! DEFINITION. The instructions: one constructor per row of spec/opcode_table.json (30_encoding.md R120 to R131).
The four bus cycles carry the enable edge that acts; the nine instructions of IR carry their fields, the bits that
R133 calls don't-care among them, so that no bit of an encoding is lost. -/

namespace Sys2Proof

inductive Instr where
  /-- RS = 0, RW = 0 (R121, R166). -/
  | writeInstruction (edge : Edge)
  /-- RS = 0, RW = 1 (R121, R159, R160). -/
  | readBfAc (edge : Edge)
  /-- RS = 1, RW = 0 (R121, R165). -/
  | writeData (edge : Edge)
  /-- RS = 1, RW = 1 (R121, R158, R167). -/
  | readData (edge : Edge)
  /-- 0000 0000 (R134, R199). -/
  | nopZero
  /-- 0000 0001 (R124, R191). -/
  | clearDisplay
  /-- 0000 001x (R125, R192). -/
  | returnHome (x : BitVec 1)
  /-- 0000 01 I S (R126, R193). -/
  | entryModeSet (incr shiftOnWrite : Bool)
  /-- 0000 1 D C B (R127, R194). -/
  | displayControl (display cursor blinking : Bool)
  /-- 0001 SC RL x x (R128, R195). -/
  | shift (screen right : Bool) (x : BitVec 2)
  /-- 001 DL N F x x (R129, R196). -/
  | functionSet (eightBit twoLines extended : Bool) (x : BitVec 2)
  /-- 01 A5..A0 (R130, R197). -/
  | setCgramAddr (a : BitVec 6)
  /-- 1 A6..A0 (R131, R198). -/
  | setDdramAddr (a : BitVec 7)
  deriving DecidableEq, Repr, Inhabited

end Sys2Proof
end

