-- ==== Sys2Proof/WellFormed.lean ====
section
/-! DEFINITION. Well-formedness. Every term of `Instr` has operands of the width its encoding gives, so what is left to
check of an instruction is its LEVEL (30_encoding.md R120): only nine of the thirteen rows are bytes of IR. The font
store that a caller supplies is checked against the shape contract of 20_memory.md R94, and the glyph width against its
range in 00_scope.md R10. -/

namespace Sys2Proof

/-- The instruction is one of the nine that IR can hold (R122, R123). -/
def Instr.isCommand : Instr → Bool
  | .writeInstruction _ => false
  | .readBfAc _ => false
  | .writeData _ => false
  | .readData _ => false
  | .nopZero => true
  | .clearDisplay => true
  | .returnHome _ => true
  | .entryModeSet _ _ => true
  | .displayControl _ _ _ => true
  | .shift _ _ _ => true
  | .functionSet _ _ _ _ => true
  | .setCgramAddr _ => true
  | .setDdramAddr _ => true

namespace Config

/-- R10: GW is a natural in 1..8. Every other parameter is in its range by its type, but for EXT_CG_BASE, which stays a
natural: its decided value at the codes 6 and 7, which the decided threshold never reads, is 66, no CGRAM address
(log 14). -/
def Params.wellFormed (p : Params) : Bool := 1 ≤ p.glyphWidth && p.glyphWidth ≤ 8

/-- A font store as a caller supplies it (R94): per font mode, the entries' rows and the two overlays' rows. Row lists
may be longer than needed ("up to 16 bitmap rows (only 8 or 11 used depending on font)"). -/
structure FontSupply where
  glyphs8  : List (List Byte)
  glyphs11 : List (List Byte)
  cursor8  : List Byte
  cursor11 : List Byte
  blink8   : List Byte
  blink11  : List Byte
  deriving DecidableEq, Repr, Inhabited

/-- The rows a font mode needs: 8, or 11 with the extended font (R94). -/
def rowsNeeded (ext : Bool) : Nat := if ext then 11 else 8

/-- The fewest rows that any of the 256 entries supplies, of the 16 that an entry may have; a missing entry supplies none
(R94). DESIGN CHOICE (log 17): R9 and R94 name only a shortfall as an error. A supply of more than 256 entries, or an entry
of more than 16 rows, is accepted, and the surplus is dropped. -/
def glyphRowsSupplied (glyphs : List (List Byte)) : Nat :=
  if glyphs.length < 256 then 0 else (glyphs.take 256).foldl (fun n rows => min n rows.length) 16

/-- The fewest rows supplied for a font mode, overlays among them: what F2 records (R300; DESIGN CHOICE, log 17). -/
def FontSupply.rowsSupplied (f : FontSupply) (ext : Bool) : Nat :=
  if ext then min (glyphRowsSupplied f.glyphs11) (min f.cursor11.length f.blink11.length)
  else min (glyphRowsSupplied f.glyphs8) (min f.cursor8.length f.blink8.length)

/-- The shape contract holds for one font mode. -/
def FontSupply.fits (f : FontSupply) (ext : Bool) : Bool := rowsNeeded ext ≤ f.rowsSupplied ext

/-- R94 for every mode at once ("discharges the contract once for every mode"). -/
def FontSupply.wellFormed (f : FontSupply) : Bool := f.fits false && f.fits true

end Config
end Sys2Proof
end

