-- ==== Sys2Proof/Decode.lean ====
section
/-! DEFINITION. The decoder and the encoder (30_encoding.md R120 to R136). There are two levels (R120): the pins RS and RW
at an enable edge select a bus cycle (R121), and the byte in IR, when committed, selects an instruction by its highest
set bit (R123). `Code` is what is decoded: one of the two. -/

namespace Sys2Proof

/-- What selects an operation (R120): the pins at an enable edge, or the byte in IR. -/
inductive Code where
  | cycle (rs rw : Bool) (edge : Edge)
  | ir (byte : Byte)
  deriving DecidableEq, Repr, Inhabited

/-- Why bytes are no instruction. There is one reason: no encoding traps (R134, R140), so only the absence of a byte is
refused. -/
inductive Reject where
  | noByte
  deriving DecidableEq, Repr, Inhabited

/-- One handler per opcode of R123. The decoder and the execution of IR (41_instructions.md R190) are two sets of
handlers over the one ordered table `selectIR`. -/
structure IRHandlers (α : Type) where
  setDdramAddr   : BitVec 7 → α
  setCgramAddr   : BitVec 6 → α
  functionSet    : Bool → Bool → Bool → BitVec 2 → α
  shift          : Bool → Bool → BitVec 2 → α
  displayControl : Bool → Bool → Bool → α
  entryModeSet   : Bool → Bool → α
  returnHome     : BitVec 1 → α
  clearDisplay   : α
  nopZero        : α

/-- R123: the ordered table of (mask, match) pairs "tested from the numerically highest bit-pattern down". The fields are
those of R126 to R131 (bit positions and polarities: log 12). -/
def selectIR {α : Type} (ir : Byte) (h : IRHandlers α) : α :=
  if ir &&& 0x80#8 = 0x80#8 then h.setDdramAddr (ir.extractLsb' 0 7)
  else if ir &&& 0xC0#8 = 0x40#8 then h.setCgramAddr (ir.extractLsb' 0 6)
  else if ir &&& 0xE0#8 = 0x20#8 then
    h.functionSet (ir.getLsbD 4) (ir.getLsbD 3) (ir.getLsbD 2) (ir.extractLsb' 0 2)
  else if ir &&& 0xF0#8 = 0x10#8 then h.shift (ir.getLsbD 3) (ir.getLsbD 2) (ir.extractLsb' 0 2)
  else if ir &&& 0xF8#8 = 0x08#8 then h.displayControl (ir.getLsbD 2) (ir.getLsbD 1) (ir.getLsbD 0)
  else if ir &&& 0xFC#8 = 0x04#8 then h.entryModeSet (ir.getLsbD 1) (ir.getLsbD 0)
  else if ir &&& 0xFE#8 = 0x02#8 then h.returnHome (ir.extractLsb' 0 1)
  else if ir = 0x01#8 then h.clearDisplay
  else h.nopZero

/-- The handlers that answer the instruction itself. -/
def instrHandlers : IRHandlers Instr where
  setDdramAddr := .setDdramAddr
  setCgramAddr := .setCgramAddr
  functionSet := .functionSet
  shift := .shift
  displayControl := .displayControl
  entryModeSet := .entryModeSet
  returnHome := .returnHome
  clearDisplay := .clearDisplay
  nopZero := .nopZero

/-- R123: decode(IR), total on all 256 values. -/
def decodeIR (ir : Byte) : Instr := selectIR ir instrHandlers

/-- R121: the bus cycle that RS and RW select. -/
def decodeCycle (rs rw : Bool) (edge : Edge) : Instr :=
  match rs, rw with
  | false, false => .writeInstruction edge
  | true,  false => .writeData edge
  | false, true  => .readBfAc edge
  | true,  true  => .readData edge

/-- The decoder over both levels (R120). -/
def decode : Code → Instr
  | .cycle rs rw edge => decodeCycle rs rw edge
  | .ir byte => decodeIR byte

/-- Decoding a stream of bytes written to IR: one instruction a byte (R122), the rest handed back. -/
def decodeBytes : List Byte → Except Reject (Instr × List Byte)
  | [] => .error .noByte
  | b :: rest => .ok (decodeIR b, rest)

/-- The encoder, from the encodings of R121 and R124 to R131. -/
def encode : Instr → Code
  | .writeInstruction edge => .cycle false false edge
  | .readBfAc edge => .cycle false true edge
  | .writeData edge => .cycle true false edge
  | .readData edge => .cycle true true edge
  | .nopZero => .ir 0b00000000#8
  | .clearDisplay => .ir 0b00000001#8
  | .returnHome x => .ir (0b0000001#7 ++ x)
  | .entryModeSet i sh => .ir (0b000001#6 ++ BitVec.ofBool i ++ BitVec.ofBool sh)
  | .displayControl d c b => .ir (0b00001#5 ++ BitVec.ofBool d ++ BitVec.ofBool c ++ BitVec.ofBool b)
  | .shift sc rl x => .ir (0b0001#4 ++ BitVec.ofBool sc ++ BitVec.ofBool rl ++ x)
  | .functionSet dl n f x => .ir (0b001#3 ++ BitVec.ofBool dl ++ BitVec.ofBool n ++ BitVec.ofBool f ++ x)
  | .setCgramAddr a => .ir (0b01#2 ++ a)
  | .setDdramAddr a => .ir (0b1#1 ++ a)

/-- The mask and match of the instruction's row of spec/opcode_table.json, over the bits its level has: the byte of IR,
or the selector (RS << 1) | RW. -/
def Instr.maskMatch : Instr → Nat × Nat
  | .writeInstruction _ => (0b11, 0b00)
  | .readBfAc _ => (0b11, 0b01)
  | .writeData _ => (0b11, 0b10)
  | .readData _ => (0b11, 0b11)
  | .nopZero => (0xFF, 0x00)
  | .clearDisplay => (0xFF, 0x01)
  | .returnHome _ => (0xFE, 0x02)
  | .entryModeSet _ _ => (0xFC, 0x04)
  | .displayControl _ _ _ => (0xF8, 0x08)
  | .shift _ _ _ => (0xF0, 0x10)
  | .functionSet _ _ _ _ => (0xE0, 0x20)
  | .setCgramAddr _ => (0xC0, 0x40)
  | .setDdramAddr _ => (0x80, 0x80)

/-- The bits of a code as the table numbers them: the byte of IR, or (RS << 1) | RW. -/
def Code.bits : Code → Nat
  | .cycle rs rw _ => 2 * rs.toNat + rw.toNat
  | .ir byte => byte.toNat

/-- The edge at which a bus cycle first acts (R121: a write at its falling edge, a read at its rising edge). -/
def actingEdge (rw : Bool) : Edge := if rw then .rising else .falling

/-- The code that a word of the opcode table stands for (log 13). The table's bus-cycle rows have 2 bits, (RS << 1) | RW;
its instruction rows have 8. A word of fewer than 8 bits is read at the level of the pins, at the edge at which the
cycle first acts; a word of 8 bits or more at the level of IR. -/
def codeOfTableWord (nbits w : Nat) : Code :=
  if nbits < 8 then .cycle (w.testBit 1) (w.testBit 0) (actingEdge (w.testBit 0))
  else .ir (BitVec.ofNat 8 w)

/-- The instruction the decoder reads from a word of the opcode table. It refuses nothing (R134, R140). -/
def decodeTableWord (nbits w : Nat) : Option Instr := some (decode (codeOfTableWord nbits w))

end Sys2Proof
end

