-- ==== Sys2Proof/Machine/Params.lean ====
section
/-! DEFINITION. The value that the spec decides for each parameter of 00_scope.md R10 that has one (log 6 to log 11), the
lookups of the two parameters that are tables, and the constants of R9. The operations take a parameter's value from the
state's configuration: what is said of every state is said of every value. -/

namespace Sys2Proof
namespace Machine

abbrev ClampCmp := Config.ClampCmp
abbrev DataReadMode := Config.DataReadMode

/-- LOAD_DIR(old, new) of the given parameters (R10, R232). -/
def loadDir (p : Config.Params) (old new : Addr) : Dir :=
  if (p.loadDirUp[old.toFin]).getLsbD new.toNat then .inc else .dec

/-- EXT_CG_BASE(code) of the given parameters (R10, R91). -/
def extCgBase (p : Config.Params) (code : Byte) : Nat := p.extCgBase[code.toFin]

/-- The decided LOAD_DIR (R10, R232; D11, log 7): inc exactly when the new value is above the old one. -/
def loadDirUp : Vector (BitVec 128) 128 :=
  ⟨⟨(List.range 128).map fun old => BitVec.allOnes 128 <<< (old + 1)⟩, by simp⟩

/-- The decided EXT_CG_BASE (R10, R91; D20, log 10): codes 2j and 2j + 1 share one glyph. -/
def extCgBaseTable : Vector Nat 256 := ⟨⟨(List.range 256).map fun code => (code &&& 0b110) * 11⟩, by simp⟩

/-- The decided values of R10: GW (D18, log 6), LOAD_DIR (D11, log 7), CLAMP_CMP (D44, log 8), CURSOR_WHEN_DISPLAY_OFF (D22,
log 9), EXT_CG_THRESHOLD and EXT_CG_BASE (D20, log 10), FOUR_BIT_DATA_READ (D6, log 11). -/
def decided : Config.Params where
  glyphWidth := 5
  loadDirUp := loadDirUp
  clampCmp := .gt
  fourBitDataRead := .wholeByte
  cursorWhenDisplayOff := true
  extCgThreshold := 6
  extCgBase := extCgBaseTable

/-- The blank character code (R9, R86). -/
def blankCode : Byte := 0x20#8

/-- LW, the line width in characters (R61). -/
def lineWidth (two : Bool) : Nat := if two then 40 else 80

/-- TOP, the top valid DDRAM address (R62). -/
def topAddr (two : Bool) : Nat := if two then 103 else 79

/-- H, the number of rows of a glyph (R268). -/
def glyphHeight (ext : Bool) : Nat := if ext then 11 else 8

end Machine
end Sys2Proof
end

