-- ==== Sys2Proof/Machine/Memory.lean ====
section
/-! DEFINITION. A memory: a list of (address, byte) pairs in one canonical form, addresses strictly rising and no entry
equal to what an unlisted address reads as (log 4). DDRAM is keyed by PHYSICAL index 0..79 (20_memory.md R81), CGRAM by
address 0..63 (R88). -/

namespace Sys2Proof
namespace Machine

abbrev Memory := List Host.Cell

/-- The byte at an address; `unlisted` is what an address that is not listed reads as. -/
def Memory.read (unlisted : Nat → Byte) : Memory → Nat → Byte
  | [], a => unlisted a
  | (b, v) :: rest, a => if b = a then v else Memory.read unlisted rest a

/-- The memory without an entry for the address. -/
def Memory.erase : Memory → Nat → Memory
  | [], _ => []
  | (b, v) :: rest, a => if b = a then rest else (b, v) :: Memory.erase rest a

/-- The memory with the entry (a, v) in its place in the rising order. -/
def Memory.insert : Memory → Nat → Byte → Memory
  | [], a, v => [(a, v)]
  | (b, w) :: rest, a, v =>
    if a < b then (a, v) :: (b, w) :: rest
    else if a = b then (a, v) :: rest
    else (b, w) :: Memory.insert rest a v

/-- A write keeps the canonical form: the value an unlisted address reads as is not listed. -/
def Memory.write (unlisted : Nat → Byte) (m : Memory) (a : Nat) (v : Byte) : Memory :=
  if v = unlisted a then m.erase a else m.insert a v

/-- Every address of the memory is above `lo`, and so on rising. -/
def Memory.risingFrom : Nat → Memory → Bool
  | _, [] => true
  | lo, (a, _) :: rest => lo ≤ a && Memory.risingFrom (a + 1) rest

/-- The canonical form of a memory of `size` cells. -/
def Memory.wf (unlisted : Nat → Byte) (size : Nat) (m : Memory) : Bool :=
  Memory.risingFrom 0 m && m.all fun c => c.1 < size && c.2 != unlisted c.1

/-- DDRAM has 80 cells (R81), CGRAM 64 (R88). -/
def ddramSize : Nat := 80
def cgramSize : Nat := 64

/-- An unlisted DDRAM cell holds the blank code, as Reset and Clear Display leave it (R86, R341). -/
def ddramUnlisted (_ : Nat) : Byte := blankCode

/-- An unlisted CGRAM cell holds its byte of DEFAULT_CGRAM, as Reset leaves it (R56, R341). -/
def cgramUnlisted (cfg : Config.Cfg) (a : Nat) : Byte := cfg.defaultCgram[a]?.getD 0#8

end Machine
end Sys2Proof
end

