-- ==== Sys2Proof/Machine/State.lean ====
section
/-! DEFINITION. The state of the block (10_state.md R30 to R60), as plain data, and the state right after construction
and Reset (70_reset_and_hazards.md R340, R341). -/

namespace Sys2Proof
namespace Machine

/-- The three fault causes of 60_exceptions.md R300, with the information R300 records. A fault ends the run (R304). -/
inductive Fault where
  /-- F1_DDRAM_ADDRESS (R301): raised by the DDRAM accessor (R84, R85) at a negative address, at 40..63 in two-line mode,
  and at a physical index of 80 or more. Safe: the spec names it "fatal to the offending call". -/
  | ddramAddress (a : Int) (twoLine : Bool)
  /-- F2_FONT_STORE_SHAPE (R302): raised by construction alone, for a font store with fewer rows than a font mode needs.
  Safe. -/
  | fontStoreShape (ext : Bool) (rowsSupplied : Nat)
  /-- F3_RENDER_LINE (R303): raised by the renderer when it is asked for the second line in one-line mode. Safe, and
  unreachable (R278). -/
  | renderLine
  deriving DecidableEq, Repr

/-- What the model has no meaning for. -/
inductive Refusal where
  /-- An instruction whose arm has no meaning yet. No arm answers it. Safe. -/
  | notModelled (mnemonic : String)
  /-- 92_eei_decisions.md D40: a pixel coordinate outside a grid, raised by the host's getter and by no step. Safe. -/
  | pixelOutsideGrid (line : Bool) (y x : Nat)
  /-- 00_scope.md R10: GW is a natural in 1..8. Raised by `construct` alone, for another glyph width, and by no step; the
  spec names no such error (log 17). Safe. -/
  | glyphWidthOutOfRange (gw : Nat)
  deriving DecidableEq, Repr

/-- The host operations of 40_bus_cycles.md R150. -/
inductive HostOp where
  | setRS (b : Bool)
  | setRW (b : Bool)
  | setDB (v : Byte)
  | setBacklight (b : Bool)
  | setPower (b : Bool)
  | setEnable (b : Bool)
  | recompute
  | reset
  deriving DecidableEq, Repr

/-- One step of one of the two agents (00_scope.md R8): a host operation, or a toggle of the blink clock
(60_exceptions.md R311). -/
inductive AgentStep where
  | host (op : HostOp)
  | blinkToggle
  deriving DecidableEq, Repr

/-- One render target: its 8 pixel rows, each a row of dots from left to right (DOT, R57), and the source address of each
character column (SRC, R58). -/
structure Grid where
  dots : List (List Bool)
  src  : List (Option Nat)
  deriving DecidableEq, Repr

structure State where
  /-- RS, RW, E, PWR, BL and DB: the pins (R31 to R36). -/
  rs  : Bool
  rw  : Bool
  db  : Byte
  e   : Bool
  pwr : Bool
  bl  : Bool
  /-- IR, DR, RB, AC, BF: the registers (R37 to R41). -/
  ir : Byte
  dr : Byte
  rb : Byte
  ac : Addr
  bf : Bool
  /-- ADDR_CG, ID, SH, DISP_D, DISP_C, DISP_B, FOUR_BIT, TWO_LINE, EXT_FONT: the mode flags (R43 to R51). -/
  addrCg   : Bool
  idFlag   : Bool
  shFlag   : Bool
  dispD    : Bool
  dispC    : Bool
  dispB    : Bool
  fourBit  : Bool
  twoLine  : Bool
  extFont  : Bool
  /-- SHIFT, the display shift offset (R53). -/
  shift : Int
  /-- NIB_PEND and RD_PHASE (R54, R55), and the phase of 4-bit data reads that R174 adds for SPLIT (log 11, log 18). -/
  nibPend     : Bool
  rdPhase     : Bool
  rdDataPhase : Bool
  /-- DDRAM by physical index and CGRAM by address (R56). -/
  ddram : Memory
  cgram : Memory
  /-- The two render targets (R57, R58). -/
  grid0 : Grid
  grid1 : Grid
  /-- BLINK, written by the blink clock alone (R59). -/
  blink : Bool
  /-- FAULT (R60, R304). -/
  fault : Option Fault
  /-- The construction parameters, which never change (R30). -/
  cfg : Config.Cfg
  /-- The MODEL's own field: the agents' coming steps, in the order in which they happen (log 1). -/
  inputs : List AgentStep
  deriving DecidableEq, Repr

/-- A grid of `w` columns of `gw` dots with every dot off. -/
def Grid.dark (gw w : Nat) (src : List (Option Nat)) : Grid :=
  { dots := List.replicate 8 (List.replicate (w * gw) false), src := src }

/-- The state that construction leaves (R340): pins low, BLINK at its draw, FAULT none, then Reset (R341), whose render
finds PWR false: every dot off (R275), grid 0 showing address c at column c (R276), grid 1 blank (R265). -/
def State.constructed (cfg : Config.Cfg) (blinkInit : Bool) : State where
  rs := false
  rw := false
  db := 0x00#8
  e := false
  pwr := false
  bl := false
  ir := 0x00#8
  dr := 0x00#8
  rb := 0x00#8
  ac := 0#7
  bf := false
  addrCg := false
  idFlag := true
  shFlag := false
  dispD := false
  dispC := false
  dispB := false
  fourBit := false
  twoLine := false
  extFont := false
  shift := 0
  nibPend := false
  rdPhase := false
  rdDataPhase := false
  ddram := []
  cgram := []
  grid0 := Grid.dark cfg.params.glyphWidth 80 ((List.range 80).map some)
  grid1 := Grid.dark cfg.params.glyphWidth 80 (List.replicate 80 none)
  blink := blinkInit
  fault := none
  cfg := cfg
  inputs := []

/-- The machine right after construction and Reset, for the free font store, default glyphs and blink draw, and the
decided value of every other parameter. -/
def State.reset : State :=
  State.constructed { font := Config.suppliedFont, defaultCgram := Config.suppliedCgram, params := decided }
    Config.blinkInit

end Machine
end Sys2Proof
end

