-- ==== Sys2Proof/Machine/Flags.lean ====
section
/-! DEFINITION. The busy flag and the mode flags: who writes them and what they derive (10_state.md R40, R43 to R52, R61,
R62). -/

namespace Sys2Proof
namespace Machine

/-- BF is written at the two ends of a processed falling edge and nowhere else (R40, 40_bus_cycles.md R169). -/
def State.setBusy (s : State) (b : Bool) : State := { s with bf := b }

/-- LW in the current mode (R61). -/
def State.lw (s : State) : Nat := lineWidth s.twoLine

/-- TOP in the current mode (R62). -/
def State.top (s : State) : Nat := topAddr s.twoLine

/-- ENTRY_MODE_SET's flags (R44, R45). -/
def State.setEntryMode (s : State) (incr shiftOnWrite : Bool) : State :=
  { s with idFlag := incr, shFlag := shiftOnWrite }

/-- DISPLAY_CONTROL's flags (R46 to R48). -/
def State.setDisplay (s : State) (display cursor blinking : Bool) : State :=
  { s with dispD := display, dispC := cursor, dispB := blinking }

/-- FUNCTION_SET's flags (R49 to R52): DL = 0 is the 4-bit bus, and two lines take priority over the extended font. -/
def State.setFunction (s : State) (eightBit twoLines extended : Bool) : State :=
  { s with fourBit := !eightBit, twoLine := twoLines, extFont := extended && !twoLines }

end Machine
end Sys2Proof
end

