-- ==== Sys2Proof/Machine/Operands.lean ====
section
/-! DEFINITION. Operands: nibbles and the busy-flag/address composite (40_bus_cycles.md R159, R160, R164), directions
(00_scope.md R14), the valid DDRAM addresses and their physical index (20_memory.md R82 to R85), and the pure address
arithmetic (42_address_counter.md R230, R231, R234). -/

namespace Sys2Proof
namespace Machine

/-- `v[7:4]`. -/
def hiNibble (v : Byte) : BitVec 4 := v.extractLsb' 4 4

/-- `v[3:0]`. -/
def loNibble (v : Byte) : BitVec 4 := v.extractLsb' 0 4

/-- A byte from its two halves (R164). -/
def joinNibbles (hi lo : BitVec 4) : Byte := hi ++ lo

/-- A half-byte driven on or taken from DB[7:4], DB[3:0] being 0 (R160, R97; log 12). -/
def onHighLane (n : BitVec 4) : Byte := n ++ 0#4

/-- The busy-flag/address composite: BF in bit 7, AC in bits 6..0 (R159; log 12). -/
def composite (bf : Bool) (ac : Addr) : Byte := BitVec.ofBool bf ++ ac

/-- R14: dirOf(ID). -/
def dirOf (idFlag : Bool) : Dir := if idFlag then .inc else .dec

/-- R14: delta. -/
def delta : Dir → Int
  | .inc => 1
  | .dec => -1

/-- R82: the valid logical DDRAM addresses. -/
def validDD (a : Int) (two : Bool) : Bool :=
  if two then (0 ≤ a && a ≤ 39) || (64 ≤ a && a ≤ 103) else 0 ≤ a && a ≤ 79

/-- R83: logical to physical. -/
def phys (a : Int) (two : Bool) : Int := if two && 64 ≤ a then a - 24 else a

/-- The checks of R84 and R85, in the order of their pseudocode (60_exceptions.md R307), and the physical index. -/
def ddramIndex (a : Int) (two : Bool) : Except Fault Nat :=
  if a < 0 || (two && 40 ≤ a && a ≤ 63) then .error (.ddramAddress a two)
  else if 80 ≤ phys a two then .error (.ddramAddress a two)
  else .ok (phys a two).toNat

/-- Is the value snapped to 0: above TOP, or at it with the other reading of CLAMP_CMP (R230, R236). -/
def aboveTop (cmp : ClampCmp) (v top : Nat) : Bool :=
  match cmp with
  | .gt => top < v
  | .ge => top ≤ v

/-- R230, first two steps: mask to 7 bits; 127 snaps to TOP; a value above TOP snaps to 0. -/
def clampDD (cmp : ClampCmp) (two : Bool) (v : Int) : Nat :=
  let m := (v % 128).toNat
  if m = 127 then topAddr two else if aboveTop cmp m (topAddr two) then 0 else m

/-- R230, last step: in two-line mode the gap 40..63 is deflected. -/
def deflectGap (two : Bool) (v : Nat) (dir : Dir) : Nat :=
  if two && 40 ≤ v && v ≤ 63 then (match dir with | .inc => 64 | .dec => 39) else v

/-- R230: NormDD(v, dir). -/
def normDD (cmp : ClampCmp) (two : Bool) (v : Int) (dir : Dir) : Addr :=
  BitVec.ofNat 7 (deflectGap two (clampDD cmp two v) dir)

/-- R231: one step of a CGRAM address, modulo 64. -/
def stepCg (ac : Addr) (dir : Dir) : Addr := BitVec.ofInt 7 ((ac.toNat + delta dir) % 64)

/-- R231: one step of a DDRAM address. -/
def stepDD (cmp : ClampCmp) (two : Bool) (ac : Addr) (dir : Dir) : Addr :=
  normDD cmp two (ac.toNat + delta dir) dir

/-- R234: SHIFT moved by d, back to 0 when it reaches the line width on either side. -/
def shiftBy (lw : Nat) (shift d : Int) : Int :=
  if shift + d = lw || shift + d = -(lw : Int) then 0 else shift + d

/-- The display step of SHIFT: +1 to the right, -1 to the left (R195). -/
def screenStep (right : Bool) : Int := if right then 1 else -1

/-- The display step of a data write with SH: -1 when incrementing, +1 when decrementing (R165; log 12). -/
def writeStep (idFlag : Bool) : Int := if idFlag then -1 else 1

end Machine
end Sys2Proof
end

