-- ==== Sys2Proof/Machine/Ops.lean ====
section
/-! DEFINITION. The named operations over registers and memories that the cycles and instructions share: the memory
accessors (20_memory.md R84 to R89), AdvanceAC, LoadDD, RenormDD, ShiftDisplay (42_address_counter.md R231 to R234), the
latches, the data commit and the read-buffer refresh (40_bus_cycles.md R163 to R168), and raising a fault
(60_exceptions.md R304). -/

namespace Sys2Proof
namespace Machine

abbrev Res := Host.Outcome State Fault Refusal

/-- What comes next in program order, unless the operation has ended in a fault (R162, R304). -/
def andThen (o : Res) (f : State → Res) : Res :=
  match o with
  | .next s => f s
  | .fault r => .fault r
  | .refused r => .refused r

/-- R304: `raise Fault` ends the current host operation in the fault outcome. There is no trap entry and no return (R308,
R309); what the operation had already written is not observable (R304, R305; log 5). -/
def raiseFault (r : Fault) : Res := .fault r

/-- R84: DDRAMRead(a, two), under the current TWO_LINE. -/
def ddramRead (s : State) (a : Int) : Except Fault Byte :=
  match ddramIndex a s.twoLine with
  | .ok p => .ok (Memory.read ddramUnlisted s.ddram p)
  | .error r => .error r

/-- R85: DDRAMWrite(a, two, v); a faulting write changes no cell. -/
def ddramWrite (s : State) (a : Int) (v : Byte) : Res :=
  match ddramIndex a s.twoLine with
  | .ok p => .next { s with ddram := Memory.write ddramUnlisted s.ddram p v }
  | .error r => raiseFault r

/-- R86: DDRAMClear(), all 80 cells to the blank code. -/
def ddramClear (s : State) : State := { s with ddram := [] }

/-- The CGRAM address space has 6 bits (R88); every address the rules use is below 64 (R89; log 14). -/
def cgramIndex (a : Nat) : Nat := a % 64

/-- R89: CGRAMRead(a). -/
def cgramRead (s : State) (a : Nat) : Byte := Memory.read (cgramUnlisted s.cfg) s.cgram (cgramIndex a)

/-- R89: CGRAMWrite(a, v). -/
def cgramWrite (s : State) (a : Nat) (v : Byte) : State :=
  { s with cgram := Memory.write (cgramUnlisted s.cfg) s.cgram (cgramIndex a) v }

/-- CGRAM back at DEFAULT_CGRAM (R341). -/
def cgramRestore (s : State) : State := { s with cgram := [] }

/-- R231: AdvanceAC(dir) under the current addressing. -/
def advanceAC (s : State) (dir : Dir) : State :=
  { s with ac := if s.addrCg then stepCg s.ac dir else stepDD s.cfg.params.clampCmp s.twoLine s.ac dir }

/-- R232: LoadDD(a), the direction being that from the old AC to the new value. -/
def loadDD (s : State) (a : Addr) : State :=
  { s with ac := normDD s.cfg.params.clampCmp s.twoLine a.toNat (loadDir s.cfg.params s.ac a) }

/-- R233: RenormDD(), nothing while CGRAM is addressed. -/
def renormDD (s : State) : State :=
  if s.addrCg then s
  else { s with ac := normDD s.cfg.params.clampCmp s.twoLine s.ac.toNat (loadDir s.cfg.params s.ac s.ac) }

/-- R234: ShiftDisplay(d). -/
def shiftDisplay (s : State) (d : Int) : State := { s with shift := shiftBy s.lw s.shift d }

/-- R192: ADDR_CG, AC and SHIFT as Return Home and Clear Display leave them. -/
def homeAddress (s : State) : State := { s with addrCg := false, ac := 0#7, shift := 0 }

/-- R163: Latch8, into DR on the data side and into IR on the instruction side. -/
def latch8 (dataSide : Bool) (s : State) : State :=
  if dataSide then { s with dr := s.db } else { s with ir := s.db }

/-- R164: the register that the edge selects. -/
def latched (dataSide : Bool) (s : State) : Byte := if dataSide then s.dr else s.ir

/-- R164: the byte that DB[7:4] makes of the selected register: its high half first, its low half second. -/
def nibbleInto (second : Bool) (reg db : Byte) : Byte :=
  if second then joinNibbles (hiNibble reg) (hiNibble db) else joinNibbles (hiNibble db) (loNibble reg)

/-- R164: Latch4. The byte is complete when NIB_PEND was set before. -/
def latch4 (dataSide : Bool) (s : State) : State :=
  if dataSide then { s with dr := nibbleInto s.nibPend s.dr s.db, nibPend := !s.nibPend }
  else { s with ir := nibbleInto s.nibPend s.ir s.db, nibPend := !s.nibPend }

/-- R162, R163, R164: the latch of a write cycle in the current bus width. -/
def latch (dataSide : Bool) (s : State) : State := if s.fourBit then latch4 dataSide s else latch8 dataSide s

/-- R162, R164: does this falling edge of a write complete the byte. -/
def completesByte (s : State) : Bool := !s.fourBit || s.nibPend

/-- R168: RefreshRB(), from the cell that ADDR_CG, AC and TWO_LINE now address. -/
def refreshRB (s : State) : Res :=
  if s.addrCg then .next { s with rb := cgramRead s s.ac.toNat }
  else match ddramRead s s.ac.toNat with
    | .ok v => .next { s with rb := v }
    | .error r => raiseFault r

/-- R165, first line: the store of a data write. -/
def storeData (s : State) (v : Byte) : Res :=
  if s.addrCg then .next (cgramWrite s s.ac.toNat v) else ddramWrite s s.ac.toNat v

/-- R165: CommitData(v): store, advance, and with SH shift the display. -/
def commitData (s : State) (v : Byte) : Res :=
  andThen (storeData s v) fun s =>
    let s := advanceAC s (dirOf s.idFlag)
    .next (if s.shFlag then shiftDisplay s (writeStep s.idFlag) else s)

end Machine
end Sys2Proof
end

