-- ==== Sys2Proof/Machine/Render.lean ====
section
/-! DEFINITION. The render-target updater (43_rendering.md R260 to R278): Render rewrites both grids from DDRAM, CGRAM,
the font store, AC, the mode flags, SHIFT, PWR and BLINK, and writes nothing else (R261). -/

namespace Sys2Proof
namespace Machine

/-- R95: FONT(ext, code, row). -/
def fontRow (f : Config.FontStore) (ext : Bool) (code : Byte) (r : Nat) : Byte :=
  if ext then (f.glyphs11[code.toFin])[r]?.getD 0#8 else (f.glyphs8[code.toFin])[r]?.getD 0#8

/-- R96: CURSOR_OV(ext, row). -/
def cursorRow (f : Config.FontStore) (ext : Bool) (r : Nat) : Byte :=
  if ext then f.cursor11[r]?.getD 0#8 else f.cursor8[r]?.getD 0#8

/-- R96: BLINK_OV(ext, row). -/
def blinkRow (f : Config.FontStore) (ext : Bool) (r : Nat) : Byte :=
  if ext then f.blink11[r]?.getD 0#8 else f.blink8[r]?.getD 0#8

/-- R268: row r of the glyph of a code, from CGRAM (R90, R91) or from the font store. -/
def glyphRow (s : State) (code : Byte) (r : Nat) : Byte :=
  if !s.extFont && code.toNat < 8 then cgramRead s (code.toNat * 8 + r)
  else if s.extFont && code.toNat < s.cfg.params.extCgThreshold then cgramRead s (extCgBase s.cfg.params code + r)
  else fontRow s.cfg.font s.extFont code r

/-- R270: is the cell at DDRAM address a the cursor cell. -/
def cursorHere (s : State) (a : Nat) : Bool :=
  !s.addrCg && s.ac.toNat = a && (s.dispD || s.cfg.params.cursorWhenDisplayOff)

/-- R271, R272: row r of the overlays on the cursor cell. BLINK is sampled once, when the render starts (R261). -/
def overlayRow (s : State) (r : Nat) : Byte :=
  (if s.dispC then cursorRow s.cfg.font s.extFont r else 0#8) |||
  (if s.dispB && s.blink then blinkRow s.cfg.font s.extFont r else 0#8)

/-- A character cell: the DDRAM address it shows and the code drawn there. -/
structure Cell where
  addr : Nat
  code : Byte
  deriving DecidableEq, Repr

/-- R273, R277: row r of a cell, glyph and overlays combined by OR. -/
def cellRow (s : State) (c : Cell) (r : Nat) : Byte :=
  glyphRow s c.code r ||| (if cursorHere s c.addr then overlayRow s r else 0#8)

/-- R269: the GW dots of a row from left to right, the least significant bit rightmost. -/
def rowDots (gw : Nat) (bits : Byte) : List Bool :=
  (List.range gw).map fun i => bits.getLsbD (gw - 1 - i)

/-- R263, R264: the column c shifted, modulo a width. -/
def shiftedColumn (s : State) (w c : Nat) : Nat := (((c : Int) - s.shift) % (w : Int)).toNat

/-- R263: the addresses shown on the first grid. -/
def firstLine (s : State) : List Nat := (List.range s.lw).map (shiftedColumn s s.lw)

/-- R264: the addresses shown on the second grid in two-line mode. In one-line mode there is no second line to address
(60_exceptions.md R303). -/
def secondLine (s : State) : Except Fault (List Nat) :=
  if s.twoLine then .ok ((List.range 40).map fun c => 64 + shiftedColumn s 40 c) else .error .renderLine

/-- R267: the code drawn at an address, the blank code while the display is off. -/
def shownCode (s : State) (a : Nat) : Except Fault Byte :=
  if s.dispD then ddramRead s a else .ok blankCode

/-- The cells of a line, in the order of its columns. -/
def lineCells (s : State) : List Nat → Except Fault (List Cell)
  | [] => .ok []
  | a :: rest =>
    match shownCode s a with
    | .error r => .error r
    | .ok k => match lineCells s rest with
      | .error r => .error r
      | .ok cells => .ok (⟨a, k⟩ :: cells)

/-- The cells of the second line: none in one-line mode (R277). -/
def secondCells (s : State) : Except Fault (List Cell) :=
  if s.twoLine then
    match secondLine s with
    | .error r => .error r
    | .ok line => lineCells s line
  else .ok []

/-- Row r of every cell of a line, from left to right. -/
def drawRow (s : State) (cells : List Cell) (r : Nat) : List Bool :=
  cells.flatMap fun c => rowDots s.cfg.params.glyphWidth (cellRow s c r)

/-- A row of a grid with every dot off. -/
def darkRow (s : State) : List Bool := List.replicate (s.lw * s.cfg.params.glyphWidth) false

/-- R269, R273: DrawRow only lights dots. -/
def orRow (a b : List Bool) : List Bool := List.zipWith (· || ·) a b

/-- R266, R274, R277: the rows 8..10 of 11-row glyphs are drawn in rows 0..2 of the second grid. -/
def borrowedRow (s : State) (cells : List Cell) (y : Nat) : List Bool :=
  if s.extFont && y < 3 then drawRow s cells (8 + y) else darkRow s

/-- Row y of the first grid (R277). -/
def row0 (s : State) (cells0 : List Cell) (y : Nat) : List Bool := drawRow s cells0 y

/-- Row y of the second grid (R264 to R266, R277). -/
def row1 (s : State) (cells0 cells1 : List Cell) (y : Nat) : List Bool :=
  if s.twoLine then orRow (borrowedRow s cells0 y) (orRow (drawRow s cells1 y) (borrowedRow s cells1 y))
  else borrowedRow s cells0 y

/-- R275: with PWR false every dot is off. -/
def gatePower (s : State) (row : List Bool) : List Bool := if s.pwr then row else darkRow s

/-- R276: the source addresses of the second grid. -/
def src1 (s : State) (cells0 cells1 : List Cell) : List (Option Nat) :=
  if s.twoLine then cells1.map (some ·.addr)
  else if s.extFont then cells0.map (some ·.addr)
  else List.replicate s.lw none

/-- R277: both grids from the cells of both lines. -/
def drawGrids (s : State) (cells0 cells1 : List Cell) : Grid × Grid :=
  ({ dots := (List.range 8).map fun y => gatePower s (row0 s cells0 y), src := cells0.map (some ·.addr) },
   { dots := (List.range 8).map fun y => gatePower s (row1 s cells0 cells1 y), src := src1 s cells0 cells1 })

/-- R277: what Render writes. -/
def renderGrids (s : State) : Except Fault (Grid × Grid) :=
  match lineCells s (firstLine s) with
  | .error r => .error r
  | .ok cells0 => match secondCells s with
    | .error r => .error r
    | .ok cells1 => .ok (drawGrids s cells0 cells1)

/-- Both render targets rewritten (R57, R58). -/
def State.setGrids (s : State) (g : Grid × Grid) : State := { s with grid0 := g.1, grid1 := g.2 }

/-- R277: Render(). -/
def render (s : State) : Res :=
  match renderGrids s with
  | .ok g => .next (s.setGrids g)
  | .error r => raiseFault r

/-- R341: the registers, flags and phases that Reset writes. -/
def resetRegisters (s : State) : State :=
  { s with
    ir := 0x00#8, dr := 0x00#8, rb := 0x00#8, bf := false, ac := 0#7,
    addrCg := false, idFlag := true, shFlag := false,
    dispD := false, dispC := false, dispB := false,
    fourBit := false, twoLine := false, extFont := false,
    shift := 0, nibPend := false, rdPhase := false, rdDataPhase := false }

/-- R341: Reset(). Pins, BLINK and FAULT are not changed. -/
def resetBlock (s : State) : Res := render (cgramRestore (ddramClear (resetRegisters s)))

end Machine
end Sys2Proof
end

