-- ==== Sys2Proof/Machine/Commands.lean ====
section
/-! DEFINITION. The nine instructions of IR (41_instructions.md R190 to R199). An instruction is what the committing
falling edge runs; RefreshRB and Render, which that edge runs next, stand in Cycles.lean. -/

namespace Sys2Proof
namespace Machine

/-- R199. -/
def execNopZero (s : State) : Res := .next s

/-- R191: all cells blank, home, increment mode. -/
def execClearDisplay (s : State) : Res := .next { homeAddress (ddramClear s) with idFlag := true }

/-- R192; the don't-care bit is ignored (R133). -/
def execReturnHome (_x : BitVec 1) (s : State) : Res := .next (homeAddress s)

/-- R193. -/
def execEntryModeSet (incr shiftOnWrite : Bool) (s : State) : Res := .next (s.setEntryMode incr shiftOnWrite)

/-- R194. -/
def execDisplayControl (display cursor blinking : Bool) (s : State) : Res :=
  .next (s.setDisplay display cursor blinking)

/-- R195: the display or AC moves under the current addressing, THEN addressing goes back to DDRAM; AC is not
renormalized (90_conflicts.md C12). The don't-care bits are ignored (R133). -/
def execShift (screen right : Bool) (_x : BitVec 2) (s : State) : Res :=
  let s := if screen then shiftDisplay s (screenStep right) else advanceAC s (dirOf right)
  .next { s with addrCg := false }

/-- R196: bus width, line count and font, then AC renormalized under the new mode. The don't-care bits are ignored
(R133). -/
def execFunctionSet (eightBit twoLines extended : Bool) (_x : BitVec 2) (s : State) : Res :=
  .next (renormDD (s.setFunction eightBit twoLines extended))

/-- R197: the address is zero-extended into AC (R132). -/
def execSetCgramAddr (a : BitVec 6) (s : State) : Res := .next { s with addrCg := true, ac := a.setWidth 7 }

/-- R198: the address goes through LoadDD (R232). -/
def execSetDdramAddr (a : BitVec 7) (s : State) : Res := .next (loadDD { s with addrCg := false } a)

/-- The handlers of R190. -/
def execHandlers (s : State) : IRHandlers Res where
  setDdramAddr a := execSetDdramAddr a s
  setCgramAddr a := execSetCgramAddr a s
  functionSet dl n f x := execFunctionSet dl n f x s
  shift sc rl x := execShift sc rl x s
  displayControl d c b := execDisplayControl d c b s
  entryModeSet i sh := execEntryModeSet i sh s
  returnHome x := execReturnHome x s
  clearDisplay := execClearDisplay s
  nopZero := execNopZero s

/-- R190: Execute(ir). `Laws.executeIR_eq_exec` says that it is exec of the decoded instruction. -/
def executeIR (ir : Byte) (s : State) : Res := selectIR ir (execHandlers s)

end Machine
end Sys2Proof
end

