-- ==== Sys2Proof/Machine/Cycles.lean ====
section
/-! DEFINITION. The four bus cycles (40_bus_cycles.md R157 to R170, R174), each at its rising and its falling edge. The
cycle is selected by RS and RW at the edge (R121); SetEnable (HostOps.lean) finds the edge. -/

namespace Sys2Proof
namespace Machine

/-- R162, R169, R170: a processed falling edge sets BF, runs its body, clears BF and renders. -/
def processed (body : State → Res) (s : State) : Res :=
  andThen (body (s.setBusy true)) fun s => render (s.setBusy false)

/-- R162: what a committed cycle does, and then RefreshRB. -/
def committed (o : Res) : Res := andThen o refreshRB

/-- R162: the body of the falling edge of a write: latch, and when the byte is complete commit it. -/
def writeFall (dataSide : Bool) (commit : State → Res) (s : State) : Res :=
  let s' := latch dataSide s
  if completesByte s then committed (commit s') else .next s'

/-- R166: WRITE_INSTRUCTION. A rising edge with RW = 0 does nothing (R157). -/
def execWriteInstruction (edge : Edge) (s : State) : Res :=
  match edge with
  | .rising => .next s
  | .falling => processed (writeFall false fun s => executeIR s.ir s) s

/-- R165: WRITE_DATA. A rising edge with RW = 0 does nothing (R157). -/
def execWriteData (edge : Edge) (s : State) : Res :=
  match edge with
  | .rising => .next s
  | .falling => processed (writeFall true fun s => commitData s s.dr) s

/-- R159: the whole composite in 8-bit mode. -/
def readBF8 (s : State) : State := { s with db := composite s.bf s.ac }

/-- R160: one half of the composite in 4-bit mode, high half first, and the phase toggled. -/
def readBF4 (s : State) : State :=
  let comp := composite s.bf s.ac
  if !s.rdPhase then { s with db := onHighLane (hiNibble comp), rdPhase := true }
  else { s with db := onHighLane (loNibble comp), rdPhase := false }

/-- R159, R160: READ_BF_AC. Its falling edge is not processed (R161). -/
def execReadBfAc (edge : Edge) (s : State) : Res :=
  match edge with
  | .rising => .next (if s.fourBit then readBF4 s else readBF8 s)
  | .falling => .next s

/-- R158: the whole byte of RB, and AC advanced. -/
def readDataWhole (s : State) : State := advanceAC { s with db := s.rb } (dirOf s.idFlag)

/-- R174: with SPLIT, half a byte a cycle; AC advances with the second half. -/
def readDataHalf (s : State) : State :=
  if !s.rdDataPhase then { s with db := onHighLane (hiNibble s.rb), rdDataPhase := true }
  else advanceAC { s with db := onHighLane (loNibble s.rb), rdDataPhase := false } (dirOf s.idFlag)

/-- R158, R174: the rising edge of READ_DATA. -/
def readDataRise (mode : DataReadMode) (s : State) : State :=
  match mode with
  | .wholeByte => readDataWhole s
  | .split => if s.fourBit then readDataHalf s else readDataWhole s

/-- R167, R174: does the falling edge of READ_DATA count as committed. With SPLIT in 4-bit mode, not after a first half.
DESIGN CHOICE (log 18): R174 speaks only of the falling edges of the first and the second read. A falling edge that no
rising edge of READ_DATA came before (RS or RW changed while E was high, or the rise lost while unpowered) is decided by
the phase alone: with the phase clear it counts as committed and refreshes RB. -/
def readDataCommits (mode : DataReadMode) (s : State) : Bool :=
  match mode with
  | .wholeByte => true
  | .split => !(s.fourBit && s.rdDataPhase)

/-- R167: the body of the falling edge of READ_DATA: nothing but RefreshRB. -/
def readDataFall (mode : DataReadMode) (s : State) : Res :=
  if readDataCommits mode s then committed (.next s) else .next s

/-- R158, R167: READ_DATA. -/
def execReadData (edge : Edge) (s : State) : Res :=
  match edge with
  | .rising => .next (readDataRise s.cfg.params.fourBitDataRead s)
  | .falling => processed (readDataFall s.cfg.params.fourBitDataRead) s

end Machine
end Sys2Proof
end

