-- ==== Sys2Proof/Machine/Dispatch.lean ====
section
/-! DEFINITION. One arm per constructor of Instr, each one call of its meaning. -/

namespace Sys2Proof
namespace Machine

def exec (i : Instr) (s : State) : Host.Outcome State Fault Refusal :=
  match i with
  | .writeInstruction edge => Sys2Proof.Machine.execWriteInstruction edge s
  | .readBfAc edge => Sys2Proof.Machine.execReadBfAc edge s
  | .writeData edge => Sys2Proof.Machine.execWriteData edge s
  | .readData edge => Sys2Proof.Machine.execReadData edge s
  | .nopZero => Sys2Proof.Machine.execNopZero s
  | .clearDisplay => Sys2Proof.Machine.execClearDisplay s
  | .returnHome x => Sys2Proof.Machine.execReturnHome x s
  | .entryModeSet incr shiftOnWrite => Sys2Proof.Machine.execEntryModeSet incr shiftOnWrite s
  | .displayControl display cursor blinking => Sys2Proof.Machine.execDisplayControl display cursor blinking s
  | .shift screen right x => Sys2Proof.Machine.execShift screen right x s
  | .functionSet eightBit twoLines extended x => Sys2Proof.Machine.execFunctionSet eightBit twoLines extended x s
  | .setCgramAddr a => Sys2Proof.Machine.execSetCgramAddr a s
  | .setDdramAddr a => Sys2Proof.Machine.execSetDdramAddr a s

end Machine
end Sys2Proof
end

