-- ==== Sys2Proof/Machine/HostOps.lean ====
section
/-! DEFINITION. The eight host operations (40_bus_cycles.md R150 to R156, R171, R172), the blink clock's step
(60_exceptions.md R311), the faulted state (R304), and what it takes for the next step to run one given instruction. -/

namespace Sys2Proof
namespace Machine

/-- The edge that SetEnable(b) makes. -/
def edgeTo (b : Bool) : Edge := if b then .rising else .falling

/-- R156, R157, R161: SetEnable(b). The level is stored even while unpowered; a change of level while PWR is true runs
the bus cycle that RS and RW select (R121) at that edge. -/
def setEnable (b : Bool) (s : State) : Res :=
  let s' := { s with e := b }
  if !s.pwr then .next s'
  else if s.e = b then .next s'
  else exec (decode (.cycle s.rs s.rw (edgeTo b))) s'

/-- R155: SetPower(b). Power-on performs Reset, power-off renders, the current level does nothing. -/
def setPower (b : Bool) (s : State) : Res :=
  let s' := { s with pwr := b }
  if s.pwr = b then .next s'
  else if b then resetBlock s'
  else render s'

/-- R150: one host operation. -/
def hostOp (op : HostOp) (s : State) : Res :=
  match op with
  | .setRS b => .next { s with rs := b }
  | .setRW b => .next { s with rw := b }
  | .setDB v => .next { s with db := v }
  | .setBacklight b => .next { s with bl := b }
  | .setPower b => setPower b s
  | .setEnable b => setEnable b s
  | .recompute => render s
  | .reset => resetBlock s

/-- R8: one step of one agent. The blink clock's step writes BLINK and nothing else, and does not render (R311). -/
def agentStep (ev : AgentStep) (s : State) : Res :=
  match ev with
  | .host op => hostOp op s
  | .blinkToggle => .next { s with blink := !s.blink }

/-- The next agent step: a faulted state has none (R304), and with no coming action the block waits (R341; log 1). -/
def takeStep (s : State) : Res :=
  match s.fault with
  | some r => .fault r
  | none => match s.inputs with
    | [] => .next s
    | ev :: rest => agentStep ev { s with inputs := rest }

/-- R304: FAULT <- (code, info), after an operation that ended in a fault. What else the operation had written is not
observable (R304, R305), and the state before it stands here (log 5). -/
def recordFault (s : State) (o : Res) : State :=
  match o with
  | .next t => t
  | .fault r => { s with fault := some r }
  | .refused _ => s

/-- R300: the codes of the faults. -/
def faultCode : Fault → Nat
  | .ddramAddress _ _ => 1
  | .fontStoreShape _ _ => 2
  | .renderLine => 3

/-- The next step is the edge `edge` of the bus cycle that RS and RW select (log 13). -/
def armCycle (s : State) (rs rw : Bool) (edge : Edge) : State :=
  { s with rs := rs, rw := rw, pwr := true, e := edge = .falling, fault := none,
           inputs := .host (.setEnable (edge = .rising)) :: s.inputs }

/-- The next step is a falling edge of WRITE_INSTRUCTION that commits the byte: whole on DB in 8-bit mode, its low half on
DB[7:4] and its high half latched in 4-bit mode (log 13). -/
def armByte (s : State) (byte : Byte) : State :=
  let s := armCycle s false false .falling
  if s.fourBit then
    { s with ir := joinNibbles (hiNibble byte) (loNibble s.ir), nibPend := true, db := onHighLane (loNibble byte) }
  else { s with db := byte }

/-- The next step runs the code (R120). -/
def armCode (s : State) (c : Code) : State :=
  match c with
  | .cycle rs rw edge => armCycle s rs rw edge
  | .ir byte => armByte s byte

end Machine
end Sys2Proof
end

