-- ==== Sys2Proof/Machine/Step.lean ====
section
/-! DEFINITION. One step of the machine: the next agent step that State holds (00_scope.md R7, R8; 20_memory.md R104). -/

namespace Sys2Proof
namespace Machine

/-- One step: next, fault or refusal. -/
def step : State → Host.Outcome State Fault Refusal := takeStep

/-- The word of the opcode table placed where the next step finds its instruction: on the pins for a bus cycle, on DB
(and in the latched half) for a byte of IR, the enable edge that acts being the next coming action (log 13). -/
def State.withFetchWord (s : State) (nbits w : Nat) : State := armCode s (codeOfTableWord nbits w)

end Machine
end Sys2Proof
end

