-- ==== Sys2Proof/Machine/Observe.lean ====
section
/-! DEFINITION. What the host can observe (40_bus_cycles.md R173), the construction of a block from a supplied font store
(70_reset_and_hazards.md R340, 60_exceptions.md R302), and the host programs of 30_encoding.md R137 and R138 as lists of
host operations. -/

namespace Sys2Proof
namespace Machine

/-- R173: everything the host may read, and nothing else (D39). -/
structure Observation where
  rs    : Bool
  rw    : Bool
  db    : Byte
  e     : Bool
  pwr   : Bool
  bl    : Bool
  bf    : Bool
  ac    : Addr
  grid0 : Grid
  grid1 : Grid
  deriving DecidableEq, Repr

def observe (s : State) : Observation :=
  { rs := s.rs, rw := s.rw, db := s.db, e := s.e, pwr := s.pwr, bl := s.bl, bf := s.bf, ac := s.ac,
    grid0 := s.grid0, grid1 := s.grid1 }

/-- The grid of a physical line, false being the first (R57). -/
def State.grid (s : State) (line : Bool) : Grid := if line then s.grid1 else s.grid0

/-- R57: DOT[l][y][x] if the coordinate is in the grid. -/
def Grid.dot? (g : Grid) (y x : Nat) : Option Bool := (g.dots[y]?).bind fun row => row[x]?

/-- R58: SRC[l][c], none outside the grid too. -/
def Grid.source (g : Grid) (c : Nat) : Option Nat := (g.src[c]?).bind id

/-- R173: the getter of a dot; a coordinate outside the grid is refused (D40). -/
def readDot (s : State) (line : Bool) (y x : Nat) : Except Refusal Bool :=
  match (s.grid line).dot? y x with
  | some b => .ok b
  | none => .error (.pixelOutsideGrid line y x)

/-- The font store of a well-formed supply (R94). DESIGN CHOICE (log 17): of more than 256 entries the first 256 are used, of
more than 16 rows (11 of an overlay) the first; a row that was not supplied, which no rule reads, is 0. -/
def fontOfSupply (f : Config.FontSupply) : Config.FontStore where
  glyphs8 := Vector.ofFn fun c => Vector.ofFn fun r => (f.glyphs8.getD c []).getD r 0#8
  glyphs11 := Vector.ofFn fun c => Vector.ofFn fun r => (f.glyphs11.getD c []).getD r 0#8
  cursor8 := Vector.ofFn fun r => f.cursor8.getD r 0#8
  cursor11 := Vector.ofFn fun r => f.cursor11.getD r 0#8
  blink8 := Vector.ofFn fun r => f.blink8.getD r 0#8
  blink11 := Vector.ofFn fun r => f.blink11.getD r 0#8

/-- R340, R302: construction, from the parameters of R10. An ill-formed font store is refused here, with
F2_FONT_STORE_SHAPE and its information (font mode, rows supplied), so that no step ever raises it.
DESIGN CHOICE (log 17): the spec gives these checks no order and does not say what is recorded when several entries or both
font modes are short. The glyph width is tested first; then the 8-row mode, which is the one reported when both are
short, then the 11-row mode; the rows recorded are the fewest of the mode's entries and overlays, a missing entry
supplying 0. -/
def construct (f : Config.FontSupply) (defaultCgram : Vector Byte 64) (params : Config.Params) (blinkInit : Bool) : Res :=
  if !params.wellFormed then .refused (.glyphWidthOutOfRange params.glyphWidth)
  else if !f.fits false then raiseFault (.fontStoreShape false (f.rowsSupplied false))
  else if !f.fits true then raiseFault (.fontStoreShape true (f.rowsSupplied true))
  else .next (State.constructed { font := fontOfSupply f, defaultCgram := defaultCgram, params := params } blinkInit)

/-- R138: one enable pulse. -/
def pulse : List HostOp := [.setEnable true, .setEnable false]

/-- R138: INS8 v and DAT8 v (`data` tells which), one 8-bit write cycle. -/
def write8 (data : Bool) (v : Byte) : List HostOp := [.setRS data, .setRW false, .setDB v] ++ pulse

/-- R138: INS4 v and DAT4 v, a pair of 4-bit write cycles. -/
def write4 (data : Bool) (v : Byte) : List HostOp :=
  [.setRS data, .setRW false, .setDB (onHighLane (hiNibble v))] ++ pulse ++
  [.setDB (onHighLane (loNibble v))] ++ pulse

/-- R138: RDBF and RDD up to the point at which the host samples DB. -/
def readUpToSample (data : Bool) : List HostOp := [.setRS data, .setRW true, .setEnable true]

/-- R138: RDBF and RDD. -/
def readCycle (data : Bool) : List HostOp := readUpToSample data ++ [.setEnable false]

/-- A host program put after the agents' coming steps: how a program comes to run (log 13). -/
def State.load (s : State) (program : List HostOp) : State :=
  { s with inputs := s.inputs ++ program.map .host }

end Machine
end Sys2Proof
end

