-- ==== Sys2Proof/Safety.lean ====
section
/-! DEFINITION. What claims about the machine are stated in: the address-counter invariant of 42_address_counter.md R235,
the invariant that every step keeps, the one hazard (70_reset_and_hazards.md R350), and a safe step. -/

namespace Sys2Proof
namespace Safety

open Sys2Proof.Machine

/-- R235: AC is a CGRAM address while CGRAM is addressed, else a valid DDRAM address of the current mode. -/
def AcValid (s : State) : Prop :=
  if s.addrCg then s.ac.toNat < 64 else validDD s.ac.toNat s.twoLine = true

/-- R57, R58, R262: a grid has 8 rows of LW*GW dots and LW source addresses. -/
structure GridFits (gw w : Nat) (g : Grid) : Prop where
  rows : g.dots.length = 8
  dots : ∀ row ∈ g.dots, row.length = w * gw
  src  : g.src.length = w

/-- What holds between any two steps of a run that has not faulted. -/
structure Inv (s : State) : Prop where
  /-- No operation is taken once FAULT is not none (R150, R304). -/
  noFault : s.fault = none
  /-- R40: BF is false in every state that can be observed. -/
  idle : s.bf = false
  /-- R52. -/
  oneFont : ¬(s.twoLine = true ∧ s.extFont = true)
  /-- R54: NIB_PEND is never true while FOUR_BIT is false. -/
  nibble : s.nibPend = true → s.fourBit = true
  /-- R235. -/
  ac : AcValid s
  /-- The memories are in their canonical form, DDRAM with 80 cells and CGRAM with 64 (R81, R88). -/
  ddram : Memory.wf ddramUnlisted ddramSize s.ddram = true
  cgram : Memory.wf (cgramUnlisted s.cfg) cgramSize s.cgram = true
  /-- The grids have the size of the current mode (R57, R262). -/
  grid0 : GridFits s.cfg.params.glyphWidth s.lw s.grid0
  grid1 : GridFits s.cfg.params.glyphWidth s.lw s.grid1
  /-- The phase of R174 is set with FOUR_BIT_DATA_READ = SPLIT alone. -/
  dataPhase : s.rdDataPhase = true → s.cfg.params.fourBitDataRead = .split

/-- IR after the latch of a write-instruction falling edge that completes the byte (R163, R164). -/
def committedByte (s : State) : Byte :=
  if s.fourBit then joinNibbles (hiNibble s.ir) (hiNibble s.db) else s.db

/-- DR after the latch of a write-data falling edge that completes the byte (R163, R164). -/
def committedData (s : State) : Byte :=
  if s.fourBit then joinNibbles (hiNibble s.dr) (hiNibble s.db) else s.db

/-- AC after the move of a Cursor/Display Shift issued while CGRAM is addressed (R195, R231). -/
def acAfterCgShift (s : State) (screen right : Bool) : Addr :=
  if screen then s.ac else stepCg s.ac (dirOf right)

/-- R350: the coming step is the falling edge that commits a Cursor/Display Shift while CGRAM is addressed in two-line
mode, with AC then in 40..63. -/
def Hazard (s : State) (a : Addr) : Prop :=
  s.inputs.head? = some (.host (.setEnable false)) ∧ s.pwr = true ∧ s.e = true ∧ s.rs = false ∧ s.rw = false ∧
  completesByte s = true ∧ s.addrCg = true ∧ s.twoLine = true ∧
  ∃ screen right x, decodeIR (committedByte s) = .shift screen right x ∧ a = acAfterCgShift s screen right ∧
    40 ≤ a.toNat ∧ a.toNat ≤ 63

/-- R261: two states agree on everything that Render reads: the memories and the font store, AC and ADDR_CG, the display,
line and font flags, SHIFT, PWR and BLINK. -/
structure SameView (s t : State) : Prop where
  ddram   : s.ddram = t.ddram
  cgram   : s.cgram = t.cgram
  cfg     : s.cfg = t.cfg
  ac      : s.ac = t.ac
  addrCg  : s.addrCg = t.addrCg
  dispD   : s.dispD = t.dispD
  dispC   : s.dispC = t.dispC
  dispB   : s.dispB = t.dispB
  twoLine : s.twoLine = t.twoLine
  extFont : s.extFont = t.extFont
  shift   : s.shift = t.shift
  pwr     : s.pwr = t.pwr
  blink   : s.blink = t.blink

/-- The byte of a physical DDRAM cell, and of a CGRAM cell: how statements read one byte of memory. -/
def ddByte (s : State) (p : Nat) : Byte := Memory.read ddramUnlisted s.ddram p
def cgByte (s : State) (a : Nat) : Byte := Memory.read (cgramUnlisted s.cfg) s.cgram a

/-- The cell that ADDR_CG, AC and TWO_LINE address (R168). -/
def addressed (s : State) : Except Fault Byte :=
  if s.addrCg then .ok (cgramRead s s.ac.toNat) else ddramRead s s.ac.toNat

/-- The grids are what Render gives in this very state (R261). -/
def Rendered (s : State) : Prop := renderGrids s = .ok (s.grid0, s.grid1)

/-- The state in which the instruction of a committing write-instruction edge runs (R162 to R164, R166). -/
def commandState (s : State) : State :=
  { s with bf := true, ir := committedByte s, nibPend := if s.fourBit then false else s.nibPend }

/-- The end of a committed falling edge (R162): from what the commit left, RB refreshed, BF cleared, both grids rendered,
nothing else. -/
def CommitEnds (u t : State) : Prop :=
  t = { u with bf := false, rb := t.rb, grid0 := t.grid0, grid1 := t.grid1 } ∧ addressed u = .ok t.rb ∧ Rendered t

/-- The falling edge of a WRITE_INSTRUCTION cycle that commits byte b goes on, to a state that satisfies P. -/
def CommitLeaves (s : State) (b : Byte) (P : State → Prop) : Prop :=
  completesByte s = true → committedByte s = b → ∃ t, exec (.writeInstruction .falling) s = .next t ∧ P t

/-- What no instruction of IR touches (41_instructions.md, introduction, and R65): the pins, IR, DR, RB, BF, NIB_PEND,
RD_PHASE, CGRAM, the grids, BLINK, FAULT, the parameters, and the coming steps. -/
structure CommandFrame (s t : State) : Prop where
  pins    : t.rs = s.rs ∧ t.rw = s.rw ∧ t.db = s.db ∧ t.e = s.e ∧ t.pwr = s.pwr ∧ t.bl = s.bl
  latches : t.ir = s.ir ∧ t.dr = s.dr ∧ t.rb = s.rb ∧ t.bf = s.bf
  phases  : t.nibPend = s.nibPend ∧ t.rdPhase = s.rdPhase ∧ t.rdDataPhase = s.rdDataPhase
  cgram   : t.cgram = s.cgram
  grids   : t.grid0 = s.grid0 ∧ t.grid1 = s.grid1
  rest    : t.blink = s.blink ∧ t.fault = s.fault ∧ t.cfg = s.cfg ∧ t.inputs = s.inputs

/-- The coming step is a falling edge of a powered block that the pins select as a write (R121, R162). -/
def ComingWriteEdge (s : State) (dataSide : Bool) : Prop :=
  s.inputs.head? = some (.host (.setEnable false)) ∧ s.pwr = true ∧ s.e = true ∧ s.rs = dataSide ∧ s.rw = false ∧
  completesByte s = true

/-- The coming step runs Reset: the host's Reset, or power-on (R155, R172). -/
def ComingReset (s : State) : Prop :=
  s.inputs.head? = some (.host .reset) ∨ (s.inputs.head? = some (.host (.setPower true)) ∧ s.pwr = false)

/-- The address after one step of a valid DDRAM address: the gap and the two ends are jumped (R231, R87); with CLAMP_CMP =
GE a step up to TOP gives 0 already (R236). -/
def neighbour (cmp : ClampCmp) (two : Bool) (a : Nat) (dir : Dir) : Nat :=
  match dir with
  | .inc => if two && a = 39 then 64 else if a = topAddr two || (cmp = .ge && a + 1 = topAddr two) then 0 else a + 1
  | .dec => if two && a = 64 then 39 else if a = 0 then topAddr two else a - 1

/-- R270 to R273: bit b of row r of the overlays at the cell of DDRAM address a, off every cell but the cursor cell. -/
def overlayBit (s : State) (a r b : Nat) : Bool :=
  !s.addrCg && s.ac.toNat == a && (s.dispD || s.cfg.params.cursorWhenDisplayOff) &&
    ((s.dispC && (cursorRow s.cfg.font s.extFont r).getLsbD b) ||
      (s.dispB && s.blink && (blinkRow s.cfg.font s.extFont r).getLsbD b))

/-- R174: a 4-bit data read moves half a byte a cycle. -/
def SplitRead (s : State) : Prop := s.fourBit = true ∧ s.cfg.params.fourBitDataRead = .split

/-- The opcode bit of an instruction of IR (R122). -/
def opcodeBit : Instr → Option Nat
  | .setDdramAddr _ => some 7
  | .setCgramAddr _ => some 6
  | .functionSet _ _ _ _ => some 5
  | .shift _ _ _ => some 4
  | .displayControl _ _ _ => some 3
  | .entryModeSet _ _ => some 2
  | .returnHome _ => some 1
  | .clearDisplay => some 0
  | .nopZero => none
  | .writeInstruction _ => none
  | .readBfAc _ => none
  | .writeData _ => none
  | .readData _ => none

/-- A step is safe when the machine goes on. -/
def SafeStep (s : State) : Prop := ∃ t, step s = .next t

end Safety
end Sys2Proof
end

