-- ==== Sys2Proof/Certificates/Slice0/Obligations.lean ====
section
/-! DEFINITION. The statements for the provers. Each docstring names the rule of spec/ that the statement formalises. A
statement about a committed cycle says what the falling edge of WRITE_INSTRUCTION leaves through `CommitLeaves`, in 8-bit
mode and for the second half of a 4-bit pair alike. -/

open Sys2Proof Sys2Proof.Machine Sys2Proof.Safety

/-! ### Encoding -/

/-- R120 to R131: both levels of encoding lose nothing. Every instruction, with every operand at every value, is decoded
from its own encoding, and every code is the encoding of what it decodes to. -/
def Obligations.DecodeEncodeAgree : Prop :=
  (∀ i : Instr, decode (encode i) = i) ∧ (∀ c : Code, encode (decode c) = c)

/-- R121, R124 to R131, V-DEC: words written out from the spec's encodings. The words 0x06, 0x0E, 0x14, 0x1B and 0x38 rest on
the bit positions and polarities that the spec takes from general knowledge (log 12), 0x00 on its decision D10 (log 15). -/
def Obligations.SampleWordsDecode : Prop :=
  decodeIR 0x00#8 = .nopZero ∧ decodeIR 0x01#8 = .clearDisplay ∧
  decodeIR 0x02#8 = .returnHome 0 ∧ decodeIR 0x03#8 = .returnHome 1 ∧
  decodeIR 0x06#8 = .entryModeSet true false ∧ decodeIR 0x0E#8 = .displayControl true true false ∧
  decodeIR 0x14#8 = .shift false true 0 ∧ decodeIR 0x1B#8 = .shift true false 3 ∧
  decodeIR 0x38#8 = .functionSet true true false 0 ∧ decodeIR 0x58#8 = .setCgramAddr 24 ∧
  decodeIR 0xB2#8 = .setDdramAddr 50 ∧
  decode (.cycle false false .falling) = .writeInstruction .falling ∧
  decode (.cycle true false .falling) = .writeData .falling ∧
  decode (.cycle false true .rising) = .readBfAc .rising ∧
  decode (.cycle true true .rising) = .readData .rising

/-- R122, R123: the position of the highest set bit is the opcode, for every byte of IR; 0x00 has none (R134). -/
def Obligations.HighestSetBitIsTheOpcode : Prop :=
  (∀ (b : Byte) (k : Nat), b.getLsbD k = true → (∀ j, k < j → b.getLsbD j = false) →
    opcodeBit (decodeIR b) = some k) ∧
  opcodeBit (decodeIR 0#8) = none

/-- R133: the don't-care bits (bit 0 of RETURN_HOME, bits 1..0 of SHIFT and FUNCTION_SET) are ignored: every value of
them executes the same instruction. -/
def Obligations.DontCareBitsAreIgnored : Prop :=
  ∀ (b m : Byte) (s : State),
    (b &&& 0xFE#8 = 0x02#8 ∧ m &&& 0xFE#8 = 0#8) ∨ (b &&& 0xF0#8 = 0x10#8 ∧ m &&& 0xFC#8 = 0#8) ∨
      (b &&& 0xE0#8 = 0x20#8 ∧ m &&& 0xFC#8 = 0#8) →
    exec (decodeIR (b ^^^ m)) s = exec (decodeIR b) s

/-! ### Steps -/

/-- R121, R156, R157, R161: an enable edge of a powered block runs exactly the bus cycle that RS and RW select, at that
edge, in the state with the new level stored. -/
def Obligations.EdgeRunsTheSelectedCycle : Prop :=
  ∀ (s : State) (b : Bool) (rest : List AgentStep), s.fault = none → s.inputs = .host (.setEnable b) :: rest →
    s.pwr = true → s.e = !b →
    step s = exec (decode (.cycle s.rs s.rw (if b then .rising else .falling))) { s with inputs := rest, e := b }

/-- R162 to R164, R166, R168 to R170: a falling edge of WRITE_INSTRUCTION that completes a byte runs exec of the instruction
decoded from the latched byte (nibble lanes: log 12), then RefreshRB, then clears BF and renders (D9: log 15); a fault
ends it. Both bus widths. -/
def Obligations.CommitRunsTheDecodedInstruction : Prop :=
  ∀ s : State, completesByte s = true →
    exec (.writeInstruction .falling) s =
      andThen (exec (decodeIR (committedByte s)) (commandState s)) fun u =>
        andThen (refreshRB u) fun v => render (v.setBusy false)

/-- The model's own convention (log 13): a table word placed with withFetchWord is what the very next step runs, from any
state. An 8-bit word runs as a committed byte of IR, a 2-bit word as the bus cycle that it selects. -/
def Obligations.FetchedWordRunsNext : Prop :=
  (∀ (s : State) (w : Nat), ∃ v, completesByte v = true ∧ committedByte v = BitVec.ofNat 8 w ∧
    step (s.withFetchWord 8 w) = exec (.writeInstruction .falling) v ∧
    v = { s with rs := false, rw := false, pwr := true, e := false, fault := none,
                 ir := v.ir, db := v.db, nibPend := v.nibPend }) ∧
  (∀ (s : State) (rs rw : Bool), ∃ v, step (s.withFetchWord 2 (2 * rs.toNat + rw.toNat)) =
      exec (decode (.cycle rs rw (if rw then .rising else .falling))) v ∧
    v = { s with rs := rs, rw := rw, pwr := true, e := rw, fault := none })

/-- R150 to R154, R156: a host operation on a level pin writes that pin and nothing else; SetEnable to the level that E
has, and any SetEnable while PWR is false, store the level and do nothing else. -/
def Obligations.LevelPinsWriteOnlyThemselves : Prop :=
  ∀ (s : State) (rest : List AgentStep) (b : Bool) (v : Byte), s.fault = none →
    (s.inputs = .host (.setRS b) :: rest → step s = .next { s with inputs := rest, rs := b }) ∧
    (s.inputs = .host (.setRW b) :: rest → step s = .next { s with inputs := rest, rw := b }) ∧
    (s.inputs = .host (.setDB v) :: rest → step s = .next { s with inputs := rest, db := v }) ∧
    (s.inputs = .host (.setBacklight b) :: rest → step s = .next { s with inputs := rest, bl := b }) ∧
    (s.inputs = .host (.setEnable b) :: rest → (s.pwr = false ∨ s.e = b) →
      step s = .next { s with inputs := rest, e := b })

/-- R311: the blink clock's step is BLINK <- not BLINK and nothing else; it does not render. -/
def Obligations.BlinkToggleWritesOnlyBlink : Prop :=
  ∀ (s : State) (rest : List AgentStep), s.fault = none → s.inputs = .blinkToggle :: rest →
    step s = .next { s with inputs := rest, blink := !s.blink }

/-- R304: a faulted state is final, however many steps are asked of it, and it is what a step that ends in a fault leads
to; FAULT then holds that fault. -/
def Obligations.FaultIsFinal : Prop :=
  ∀ (s : State) (r : Fault), step s = .fault r →
    (recordFault s (step s)).fault = some r ∧
    ∀ k : Nat, Sys2Proof.core.run (k + 1) (recordFault s (step s)) = .fault r

/-- R134, R140: no encoding traps and every instruction has its meaning: nothing is ever refused, by exec or by a step. -/
def Obligations.NothingIsRefused : Prop :=
  (∀ (i : Instr) (s : State) (r : Refusal), exec i s ≠ .refused r) ∧
  (∀ (s : State) (r : Refusal), step s ≠ .refused r)

/-! ### Reset and power -/

/-- R341: Reset, from any state and whatever PWR is (R172). Registers, flags, phases and SHIFT at the rule's values, every
DDRAM cell 0x20, CGRAM at DEFAULT_CGRAM, both grids rendered; pins, BLINK and FAULT as before. The flag values and RB = 0
are the spec's decision D29 (log 15), ID true its general knowledge (log 12), the phase of R174 its decision D6 (log 11). -/
def Obligations.ResetLeavesTheRulesValues : Prop :=
  ∀ s : State, ∃ t, hostOp .reset s = .next t ∧
    t.ir = 0 ∧ t.dr = 0 ∧ t.rb = 0 ∧ t.bf = false ∧ t.ac = 0 ∧ t.addrCg = false ∧ t.idFlag = true ∧ t.shFlag = false ∧
    t.dispD = false ∧ t.dispC = false ∧ t.dispB = false ∧ t.fourBit = false ∧ t.twoLine = false ∧ t.extFont = false ∧
    t.shift = 0 ∧ t.nibPend = false ∧ t.rdPhase = false ∧ t.rdDataPhase = false ∧
    (∀ p, p < 80 → ddByte t p = 0x20#8) ∧ (∀ a : Fin 64, cgByte t a = s.cfg.defaultCgram[a]) ∧ Rendered t ∧
    t.rs = s.rs ∧ t.rw = s.rw ∧ t.db = s.db ∧ t.e = s.e ∧ t.pwr = s.pwr ∧ t.bl = s.bl ∧
    t.blink = s.blink ∧ t.fault = s.fault ∧ t.cfg = s.cfg ∧ t.inputs = s.inputs

/-- R340: the constructed state, for every font store, default glyphs and blink draw: pins low, DB 0, BLINK at BLINK_INIT,
FAULT none, and Reset applied: neither Reset nor Render changes it, and the invariant holds. -/
def Obligations.ConstructionIsAFixpointOfReset : Prop :=
  ∀ (cfg : Config.Cfg) (b : Bool), ∃ s, s = State.constructed cfg b ∧
    s.rs = false ∧ s.rw = false ∧ s.e = false ∧ s.pwr = false ∧ s.bl = false ∧ s.db = 0 ∧ s.blink = b ∧
    s.fault = none ∧ s.cfg = cfg ∧
    hostOp .reset s = .next s ∧ hostOp .recompute s = .next s ∧ Inv s

/-- R155, R316, R343: SetPower. Power-on is Reset in the state with PWR set; power-off changes PWR and the grids alone,
every dot then being off and the grids being what Render gives; the level that PWR has does nothing. -/
def Obligations.PowerTransitions : Prop :=
  ∀ s : State,
    (s.pwr = false → hostOp (.setPower true) s = hostOp .reset { s with pwr := true }) ∧
    (s.pwr = true → ∃ t, hostOp (.setPower false) s = .next t ∧
      t = { s with pwr := false, grid0 := t.grid0, grid1 := t.grid1 } ∧ Rendered t ∧
      (∀ row ∈ t.grid0.dots ++ t.grid1.dots, ∀ dot ∈ row, dot = false)) ∧
    (hostOp (.setPower s.pwr) s = .next s)

/-! ### Memories -/

/-- R82, R83, R84: DDRAMRead answers the physical cell exactly at the valid logical addresses, negative ones, the gap and
the addresses past the end faulting with F1_DDRAM_ADDRESS and (address, TWO_LINE); it never clamps. -/
def Obligations.DdramReadFaultsOffTheMap : Prop :=
  ∀ (s : State) (a : Int),
    (s.twoLine = true → 64 ≤ a → a ≤ 103 → ddramRead s a = .ok (ddByte s (a - 24).toNat)) ∧
    (0 ≤ a → (a ≤ 39 ∨ (s.twoLine = false ∧ a ≤ 79)) → ddramRead s a = .ok (ddByte s a.toNat)) ∧
    ((a < 0 ∨ (s.twoLine = true ∧ 40 ≤ a ∧ a ≤ 63) ∨ (s.twoLine = true ∧ 104 ≤ a) ∨ (s.twoLine = false ∧ 80 ≤ a)) →
      ddramRead s a = .error (.ddramAddress a s.twoLine))

/-- R85: DDRAMWrite makes the checks of DDRAMRead; a write that passes them is read back, and every other physical cell is
left alone; a faulting write changes no cell (it answers no state). That the memory keeps its canonical form is the
model's choice of representation (log 4). -/
def Obligations.DdramWriteIsReadBack : Prop :=
  ∀ (s : State) (a : Int) (v : Byte), Memory.wf ddramUnlisted ddramSize s.ddram = true →
    (validDD a s.twoLine = true → ∃ t, ddramWrite s a v = .next t ∧ ddramRead t a = .ok v ∧
      (∀ p, p ≠ (phys a s.twoLine).toNat → ddByte t p = ddByte s p) ∧ t = { s with ddram := t.ddram } ∧
      Memory.wf ddramUnlisted ddramSize t.ddram = true) ∧
    (validDD a s.twoLine = false → ddramWrite s a v = .fault (.ddramAddress a s.twoLine))

/-- R87: changing TWO_LINE moves no data: one-line address 40+N and two-line address 64+N are one cell. -/
def Obligations.LineModesAliasTheSameCells : Prop :=
  ∀ (s : State) (n : Nat), n < 40 →
    ddramRead { s with twoLine := true } (64 + n) = ddramRead { s with twoLine := false } (40 + n) ∧
    ddramRead { s with twoLine := true } n = ddramRead { s with twoLine := false } n

/-! ### Address counter and display shift -/

/-- R230 (CLAMP_CMP = GT: log 8): NormDD by cases on the value masked to 7 bits: 127 snaps to TOP, a value above TOP to 0, a
two-line gap value is deflected by direction, any other is kept. -/
def Obligations.NormDDByCases : Prop :=
  ∀ (two : Bool) (v : Int) (dir : Dir) (m : Nat), (m : Int) = v % 128 →
    (m = 127 → (normDD .gt two v dir).toNat = topAddr two) ∧
    (m ≠ 127 → topAddr two < m → (normDD .gt two v dir).toNat = 0) ∧
    (two = true → 40 ≤ m → m ≤ 63 → (normDD .gt two v dir).toNat = if dir = .inc then 64 else 39) ∧
    (m ≤ topAddr two → (two = true → m < 40 ∨ 63 < m) → (normDD .gt two v dir).toNat = m)

/-- R236, R230, R82 (CLAMP_CMP: log 8): the two readings of the clamp comparison differ at TOP alone, which GT keeps and
GE snaps to 0; under both, NormDD gives a valid DDRAM address of the mode. -/
def Obligations.ClampReadingsDifferAtTopAlone : Prop :=
  ∀ (two : Bool) (v : Int) (dir : Dir),
    (v % 128 = topAddr two →
      (normDD .gt two v dir).toNat = topAddr two ∧ (normDD .ge two v dir).toNat = 0) ∧
    (v % 128 ≠ topAddr two → normDD .ge two v dir = normDD .gt two v dir) ∧
    ∀ cmp : ClampCmp, validDD (normDD cmp two v dir).toNat two = true

/-- R231, R236: AdvanceAC moves AC and nothing else: modulo 64 in CGRAM (D12: log 15), and in DDRAM from a valid address to its
neighbour, the gap and both ends jumped, for either value of CLAMP_CMP (log 8). -/
def Obligations.AdvanceStepsToTheNeighbour : Prop :=
  ∀ (s : State) (dir : Dir),
    advanceAC s dir = { s with ac := (advanceAC s dir).ac } ∧
    (s.addrCg = true → ((advanceAC s dir).ac.toNat : Int) = (s.ac.toNat + delta dir) % 64) ∧
    (s.addrCg = false → validDD s.ac.toNat s.twoLine = true →
      (advanceAC s dir).ac.toNat = neighbour s.cfg.params.clampCmp s.twoLine s.ac.toNat dir)

/-- R234: ShiftDisplay writes SHIFT alone, which wraps to 0 exactly when it would reach plus or minus the line width; so a
SHIFT below the line width in magnitude stays below it. -/
def Obligations.ShiftWrapsAtTheLineWidth : Prop :=
  ∀ (s : State) (d : Int), d = 1 ∨ d = -1 →
    shiftDisplay s d = { s with shift := (shiftDisplay s d).shift } ∧
    ((s.shift + d = s.lw ∨ s.shift + d = -(s.lw : Int)) → (shiftDisplay s d).shift = 0) ∧
    (s.shift + d ≠ s.lw → s.shift + d ≠ -(s.lw : Int) → (shiftDisplay s d).shift = s.shift + d) ∧
    (s.shift.natAbs < s.lw → (shiftDisplay s d).shift.natAbs < s.lw)

/-! ### Instructions -/

/-- R199 (the spec's decision D10): NOP_ZERO changes no state, and the edge that commits it refreshes RB and renders. -/
def Obligations.NopZeroChangesNothing : Prop :=
  ∀ s : State, exec .nopZero s = .next s ∧
    (AcValid s → CommitLeaves s 0x00#8 fun t => CommitEnds (commandState s) t)

/-- R191: CLEAR_DISPLAY, 0x01. Every DDRAM cell 0x20, DDRAM addressed at 0, SHIFT 0, increment mode; all else as before;
the committing edge then reads RB = 0x20. -/
def Obligations.ClearDisplayBlanksAndGoesHome : Prop :=
  decodeIR 0x01#8 = .clearDisplay ∧
  ∀ s : State, ∃ t, exec .clearDisplay s = .next t ∧
    (∀ p, ddByte t p = 0x20#8) ∧ t.ac = 0 ∧ t.shift = 0 ∧ t.idFlag = true ∧ t.addrCg = false ∧
    t = { s with ddram := t.ddram, addrCg := false, ac := 0, shift := 0, idFlag := true } ∧
    CommitLeaves s 0x01#8 fun v => v.rb = 0x20#8 ∧ (∀ p, ddByte v p = 0x20#8) ∧
      ∃ u, exec .clearDisplay (commandState s) = .next u ∧ CommitEnds u v

/-- R192: RETURN_HOME, 0x02 or 0x03. DDRAM addressed at 0 and SHIFT 0, DDRAM and all else as before; twice is once; the
committing edge then reads RB from cell 0. -/
def Obligations.ReturnHomeIsIdempotent : Prop :=
  decodeIR 0x02#8 = .returnHome 0 ∧ decodeIR 0x03#8 = .returnHome 1 ∧
  ∀ (s : State) (x : BitVec 1), ∃ t, exec (.returnHome x) s = .next t ∧
    t = { s with addrCg := false, ac := 0, shift := 0 } ∧ exec (.returnHome x) t = .next t ∧
    ∀ b, b = 0x02#8 ∨ b = 0x03#8 → CommitLeaves s b fun v =>
      v.rb = ddByte s 0 ∧ v.ac = 0 ∧ v.shift = 0 ∧ v.addrCg = false ∧ v.ddram = s.ddram ∧
      ∃ u, exec (.returnHome x) (commandState s) = .next u ∧ CommitEnds u v

/-- R193, R126 (bit positions and polarities: log 12): ENTRY_MODE_SET writes ID and SH from bits 1 and 0 and nothing
else. -/
def Obligations.EntryModeSetWritesItsTwoFlags : Prop :=
  ∀ (s : State) (i h : Bool), exec (.entryModeSet i h) s = .next { s with idFlag := i, shFlag := h } ∧
    ∀ b : Byte, b &&& 0xFC#8 = 0x04#8 → AcValid s → CommitLeaves s b fun t =>
      CommitEnds { commandState s with idFlag := b.getLsbD 1, shFlag := b.getLsbD 0 } t

/-- R194, R127 (bit positions and polarities: log 12): DISPLAY_CONTROL writes DISP_D, DISP_C and DISP_B from bits 2, 1 and
0 and nothing else. -/
def Obligations.DisplayControlWritesItsThreeFlags : Prop :=
  ∀ (s : State) (d c bl : Bool),
    exec (.displayControl d c bl) s = .next { s with dispD := d, dispC := c, dispB := bl } ∧
    ∀ b : Byte, b &&& 0xF8#8 = 0x08#8 → AcValid s → CommitLeaves s b fun t =>
      CommitEnds { commandState s with dispD := b.getLsbD 2, dispC := b.getLsbD 1, dispB := b.getLsbD 0 } t

/-- R195 (bits: log 12; the order of move and switch, and no renormalization, D13, the step in CGRAM, D12: log 15; CLAMP_CMP:
log 8). With the screen flag SHIFT moves by one and AC stays; without it AC moves by one under the addressing found, in
the direction of the instruction's own bit (not of ID), and SHIFT stays. Addressing goes back to DDRAM; all else as
before. -/
def Obligations.ShiftMovesDisplayOrCursor : Prop :=
  ∀ (s : State) (right : Bool) (x : BitVec 2),
    (∃ t, exec (.shift true right x) s = .next t ∧ t = { s with addrCg := false, shift := t.shift } ∧
      t.shift = (if right then (if s.shift + 1 = s.lw then 0 else if s.shift + 1 = -(s.lw : Int) then 0 else s.shift + 1)
        else (if s.shift - 1 = s.lw then 0 else if s.shift - 1 = -(s.lw : Int) then 0 else s.shift - 1))) ∧
    (∃ t, exec (.shift false right x) s = .next t ∧ t = { s with addrCg := false, ac := t.ac } ∧
      (s.addrCg = true → (t.ac.toNat : Int) = (s.ac.toNat + (if right then 1 else -1)) % 64) ∧
      (s.addrCg = false → validDD s.ac.toNat s.twoLine = true →
        t.ac.toNat = neighbour s.cfg.params.clampCmp s.twoLine s.ac.toNat (if right then .inc else .dec)))

/-- R196, R233 (bits: log 12; LOAD_DIR: log 7; CLAMP_CMP: log 8): FUNCTION_SET writes the bus width, the line count and the
font, two lines taking priority over the extended font, and renormalizes AC while DDRAM is addressed, under the new mode
and in the direction LOAD_DIR(a, a), which is decided dec; all else, SHIFT and the phases too, as before. The edge that
commits it never faults. -/
def Obligations.FunctionSetRenormalizes : Prop :=
  ∀ (s : State) (dl n f : Bool) (x : BitVec 2), ∃ t, exec (.functionSet dl n f x) s = .next t ∧
    t = { s with fourBit := !dl, twoLine := n, extFont := f && !n, ac := t.ac } ∧
    (s.addrCg = true → t.ac = s.ac) ∧
    (s.addrCg = false →
      (validDD s.ac.toNat n = true → s.cfg.params.clampCmp = .gt ∨ s.ac.toNat ≠ topAddr n → t.ac = s.ac) ∧
      (s.cfg.params.clampCmp = .ge → s.ac.toNat = topAddr n → t.ac = 0) ∧
      (n = true → 40 ≤ s.ac.toNat → s.ac.toNat ≤ 63 →
        t.ac.toNat = (if loadDir s.cfg.params s.ac s.ac = .inc then 64 else 39) ∧
        (s.cfg.params = decided → t.ac.toNat = 39)) ∧
      (s.ac.toNat = 127 → t.ac.toNat = topAddr n) ∧
      (s.ac.toNat ≠ 127 → topAddr n < s.ac.toNat → t.ac.toNat = 0)) ∧
    ∀ b, decodeIR b = .functionSet dl n f x → CommitLeaves s b fun v =>
      ∃ u, exec (.functionSet dl n f x) (commandState s) = .next u ∧ CommitEnds u v

/-- R197, R132: SET_CGRAM_ADDR addresses CGRAM at the low 6 bits, zero-extended and not clamped, and changes nothing else;
the committing edge then reads RB from that CGRAM cell. -/
def Obligations.SetCgramAddrLoadsSixBits : Prop :=
  ∀ (s : State) (a : BitVec 6), ∃ t, exec (.setCgramAddr a) s = .next t ∧
    t = { s with addrCg := true, ac := t.ac } ∧ t.ac.toNat = a.toNat ∧
    ∀ b : Byte, 0x40 ≤ b.toNat → b.toNat ≤ 0x7F → b.toNat % 64 = a.toNat → CommitLeaves s b fun v =>
      v.rb = cgByte s a.toNat ∧ ∃ u, exec (.setCgramAddr a) (commandState s) = .next u ∧ CommitEnds u v

/-- R198, R232 (LOAD_DIR: log 7; CLAMP_CMP: log 8): SET_DDRAM_ADDR addresses DDRAM and loads the low 7 bits through the
normalization, a two-line gap value going by LOAD_DIR from the old AC: decided 64 when it is above it and 39 otherwise;
all else as before; the committing edge never faults. -/
def Obligations.SetDdramAddrNormalizesTheLoad : Prop :=
  ∀ (s : State) (a : BitVec 7), ∃ t, exec (.setDdramAddr a) s = .next t ∧
    t = { s with addrCg := false, ac := t.ac } ∧
    (validDD a.toNat s.twoLine = true → s.cfg.params.clampCmp = .gt ∨ a.toNat ≠ s.top → t.ac = a) ∧
    (s.cfg.params.clampCmp = .ge → a.toNat = s.top → t.ac = 0) ∧
    (a.toNat = 127 → t.ac.toNat = s.top) ∧
    (a.toNat ≠ 127 → s.top < a.toNat → t.ac.toNat = 0) ∧
    (s.twoLine = true → 40 ≤ a.toNat → a.toNat ≤ 63 →
      t.ac.toNat = (if loadDir s.cfg.params s.ac a = .inc then 64 else 39) ∧
      (s.cfg.params = decided → t.ac.toNat = if s.ac.toNat < a.toNat then 64 else 39)) ∧
    ∀ b : Byte, 0x80 ≤ b.toNat → b.toNat % 128 = a.toNat → CommitLeaves s b fun v =>
      ∃ u, exec (.setDdramAddr a) (commandState s) = .next u ∧ CommitEnds u v

/-- 41_instructions.md, introduction, and R65: no instruction of IR touches the pins, the latches, BF, the phases, CGRAM,
the grids, BLINK, FAULT or the parameters; only CLEAR_DISPLAY writes DDRAM; and every instruction goes on. -/
def Obligations.InstructionsLeaveTheFrame : Prop :=
  ∀ (b : Byte) (s : State), ∃ t, exec (decodeIR b) s = .next t ∧ CommandFrame s t ∧
    (decodeIR b ≠ .clearDisplay → t.ddram = s.ddram)

/-! ### Bus cycles -/

/-- R162, R168, R169, R170: whatever the instruction, if it leaves a valid AC the committing edge goes on, with RB read
from the cell now addressed, BF clear, and the grids rendered; if it leaves DDRAM addressed at an invalid AC the edge
faults with F1_DDRAM_ADDRESS and that address. -/
def Obligations.CommittedEdgeFollowsTheAcItLeaves : Prop :=
  ∀ s u : State, completesByte s = true → exec (decodeIR (committedByte s)) (commandState s) = .next u →
    (AcValid u → ∃ t, exec (.writeInstruction .falling) s = .next t ∧ CommitEnds u t) ∧
    (u.addrCg = false → validDD u.ac.toNat u.twoLine = false →
      exec (.writeInstruction .falling) s = .fault (.ddramAddress u.ac.toNat u.twoLine))

/-- R157: the rising edge of a write does nothing, in every state. R164 (nibble lane: log 12): the first half of a 4-bit pair,
on either side: DB[7:4] goes to the high half of the selected register, whose low half is kept, NIB_PEND is set, nothing
commits (no instruction, no store, no RefreshRB), and both grids are rendered. -/
def Obligations.FirstHalfOnlyLatches : Prop :=
  ∀ s : State, exec (.writeInstruction .rising) s = .next s ∧ exec (.writeData .rising) s = .next s ∧
    (s.fourBit = true → s.nibPend = false →
      (∃ t, exec (.writeInstruction .falling) s = .next t ∧ Rendered t ∧
        t = { s with ir := joinNibbles (hiNibble s.db) (loNibble s.ir), nibPend := true, bf := false,
                     grid0 := t.grid0, grid1 := t.grid1 }) ∧
      (∃ t, exec (.writeData .falling) s = .next t ∧ Rendered t ∧
        t = { s with dr := joinNibbles (hiNibble s.db) (loNibble s.dr), nibPend := true, bf := false,
                     grid0 := t.grid0, grid1 := t.grid1 }))

/-- R165: WRITE_DATA, committed. The byte goes to the cell that AC addresses, every other byte of both memories reads as
before, AC advances, SHIFT moves against the text when SH is set (log 12), RB is read from the new cell, the grids are
rendered, and nothing else changes. -/
def Obligations.WriteDataStoresAtAc : Prop :=
  ∀ s : State, completesByte s = true → AcValid s → Memory.wf ddramUnlisted ddramSize s.ddram = true →
    Memory.wf (cgramUnlisted s.cfg) cgramSize s.cgram = true →
    ∃ t, exec (.writeData .falling) s = .next t ∧
      (s.addrCg = true → cgByte t s.ac.toNat = committedData s ∧
        (∀ a, a ≠ s.ac.toNat → cgByte t a = cgByte s a) ∧ (∀ p, ddByte t p = ddByte s p)) ∧
      (s.addrCg = false → ddramRead t s.ac.toNat = .ok (committedData s) ∧
        (∀ p, p ≠ (phys s.ac.toNat s.twoLine).toNat → ddByte t p = ddByte s p) ∧ (∀ a, cgByte t a = cgByte s a)) ∧
      t.ac = (advanceAC s (if s.idFlag then .inc else .dec)).ac ∧
      t.shift = (if s.shFlag then (shiftDisplay s (if s.idFlag then -1 else 1)).shift else s.shift) ∧
      addressed t = .ok t.rb ∧ Rendered t ∧
      t = { s with ddram := t.ddram, cgram := t.cgram, dr := committedData s,
                   nibPend := if s.fourBit then false else s.nibPend, ac := t.ac, shift := t.shift, rb := t.rb,
                   bf := false, grid0 := t.grid0, grid1 := t.grid1 }

/-- R159, R160, R161: READ_BF_AC. In 8-bit mode DB gets BF in bit 7 and AC below (log 12), in 4-bit mode the high half and
then the low half on DB[7:4], the phase toggling; nothing else changes, and the falling edge does nothing. Two 4-bit reads
in a row, from a clear phase, give the host all of BF and AC. -/
def Obligations.BusyFlagReadGivesAc : Prop :=
  ∀ s : State,
    (s.fourBit = false → exec (.readBfAc .rising) s = .next { s with db := composite s.bf s.ac } ∧
      (composite s.bf s.ac).toNat = 128 * s.bf.toNat + s.ac.toNat) ∧
    (s.fourBit = true → s.rdPhase = false → ∃ t u,
      exec (.readBfAc .rising) s = .next t ∧ t = { s with db := t.db, rdPhase := true } ∧
      exec (.readBfAc .rising) t = .next u ∧ u = { s with db := u.db } ∧
      t.db.toNat % 16 = 0 ∧ u.db.toNat % 16 = 0 ∧
      t.db.toNat + u.db.toNat / 16 = 128 * s.bf.toNat + s.ac.toNat) ∧
    (s.fourBit = true → s.rdPhase = true → ∃ t, exec (.readBfAc .rising) s = .next t ∧
      t = { s with db := t.db, rdPhase := false } ∧ t.db.toNat = 16 * (s.ac.toNat % 16)) ∧
    exec (.readBfAc .falling) s = .next s

/-- R158, R167: READ_DATA, where it moves a whole byte: in 8-bit mode, and in 4-bit mode with FOUR_BIT_DATA_READ = WHOLE_BYTE
(log 11). The rising edge drives RB, whole, onto DB and advances AC, without shifting the display; the falling edge reads
RB from the cell now addressed and renders. Nothing else changes. -/
def Obligations.ReadDataDrivesTheBuffer : Prop :=
  ∀ s : State, ¬ SplitRead s →
    (∃ t, exec (.readData .rising) s = .next t ∧ t = { s with db := s.rb, ac := t.ac } ∧
      t.ac = (advanceAC s (if s.idFlag then .inc else .dec)).ac) ∧
    (AcValid s → ∃ t, exec (.readData .falling) s = .next t ∧ CommitEnds s t)

/-- R174, the other value of FOUR_BIT_DATA_READ (log 11): a 4-bit data read takes two cycles. The first drives the high half of
RB and its falling edge only renders; the second drives the low half and advances AC, and its falling edge refreshes RB. -/
def Obligations.SplitDataReadTakesTwoCycles : Prop :=
  ∀ s : State, SplitRead s → s.rdDataPhase = false → ∃ t t' u w,
    exec (.readData .rising) s = .next t ∧ t = { s with db := t.db, rdDataPhase := true } ∧
    exec (.readData .falling) t = .next t' ∧
    t' = { t with bf := false, grid0 := t'.grid0, grid1 := t'.grid1 } ∧ Rendered t' ∧
    exec (.readData .rising) t' = .next u ∧ u = { t' with db := u.db, ac := u.ac, rdDataPhase := false } ∧
    u.ac = (advanceAC s (if s.idFlag then .inc else .dec)).ac ∧
    exec (.readData .falling) u = .next w ∧ CommitEnds u w ∧
    t.db.toNat % 16 = 0 ∧ u.db.toNat % 16 = 0 ∧ t.db.toNat + u.db.toNat / 16 = s.rb.toNat

/-- R135, R164, R163: a 4-bit pair is an 8-bit write. After a first half and a second half on DB[7:4] (whatever DB[3:0]
carries) the data side ends as one 8-bit cycle with the whole byte on DB ends, but for the bus width and DB themselves. -/
def Obligations.NibblePairEqualsWholeByte : Prop :=
  ∀ (s t : State) (v lo : Byte), s.fourBit = true → s.nibPend = false → hiNibble s.db = hiNibble v →
    hiNibble lo = loNibble v → exec (.writeData .falling) s = .next t →
    exec (.writeData .falling) { t with db := lo } =
      andThen (exec (.writeData .falling) { s with fourBit := false, db := v }) fun w =>
        .next { w with fourBit := true, db := lo }

/-- R347: the stale read. A data read right after a data write drives onto DB the byte of the cell that AC moved to, not the
byte written (with SPLIT in 4-bit mode, a half of it: R174, log 11). -/
def Obligations.ReadAfterWriteIsStale : Prop :=
  ∀ s t : State, completesByte s = true → exec (.writeData .falling) s = .next t →
    ∃ u v, exec (.readData .rising) t = .next u ∧ addressed t = .ok v ∧
      (¬ SplitRead t → u.db = v) ∧
      (SplitRead t → u.db = onHighLane (if t.rdDataPhase then loNibble v else hiNibble v))

/-- R347, C11, T3, T5: a cell re-addressed is read back. In 8-bit mode: write a data byte, then commit the set-address
instruction of that same cell, DDRAM or CGRAM, then read: the host gets the byte written. With CLAMP_CMP = GE the DDRAM
cell at TOP cannot be addressed so (R236; decided GT: log 8). -/
def Obligations.ReaddressedCellReadsBack : Prop :=
  ∀ s : State, s.fourBit = false → AcValid s → Memory.wf ddramUnlisted ddramSize s.ddram = true →
    Memory.wf (cgramUnlisted s.cfg) cgramSize s.cgram = true →
    (s.addrCg = true ∨ s.cfg.params.clampCmp = .gt ∨ s.ac.toNat ≠ s.top) →
    ∃ t u w, exec (.writeData .falling) s = .next t ∧
      exec (.writeInstruction .falling)
        { t with rs := false, db := (if s.addrCg then 0x40#8 else 0x80#8) ||| s.ac.setWidth 8 } = .next u ∧
      u.ac = s.ac ∧ exec (.readData .rising) { u with rs := true, rw := true } = .next w ∧ w.db = s.db

/-! ### Rendering -/

/-- R278, R171, R261: Recompute never faults, whatever the state, and writes the two grids and nothing else; they are what
Render gives, so a second Recompute changes nothing. -/
def Obligations.RecomputeCannotFault : Prop :=
  ∀ s : State, ∃ t, hostOp .recompute s = .next t ∧ t = { s with grid0 := t.grid0, grid1 := t.grid1 } ∧ Rendered t ∧
    hostOp .recompute t = .next t

/-- R263, R264, R265, R276: the source addresses that Render writes, in every state that R52 allows. -/
def Obligations.SourceAddressesFollowTheShift : Prop :=
  ∀ s t : State, render s = .next t → ∀ c, c < s.lw →
    (t.grid0.source c).map Int.ofNat = some (((c : Int) - s.shift) % s.lw) ∧
    (s.twoLine = true → (t.grid1.source c).map Int.ofNat = some (64 + ((c : Int) - s.shift) % 40)) ∧
    (s.twoLine = false → s.extFont = true → t.grid1.source c = t.grid0.source c) ∧
    (s.twoLine = false → s.extFont = false → t.grid1.source c = none)

/-- R262, R268 to R273: the dots of the first grid, for every glyph width (decided 5: log 6). Bit b of row y of the cell at
column c is the dot GW - 1 - b of that cell. It is the glyph's bit OR, on the cursor cell alone (ADDR_CG false, AC its
address; display off too: log 9), the cursor's bit when DISP_C and the blink's when DISP_B and BLINK. -/
def Obligations.FirstGridShowsTheGlyphRows : Prop :=
  ∀ s t : State, s.pwr = true → render s = .next t → ∀ c y b, c < s.lw → y < 8 → b < s.cfg.params.glyphWidth →
    ∀ a k, t.grid0.source c = some a → (s.dispD = true → ddramRead s a = .ok k) → (s.dispD = false → k = 0x20#8) →
    t.grid0.dot? y (c * s.cfg.params.glyphWidth + (s.cfg.params.glyphWidth - 1 - b)) =
      some ((glyphRow s k y).getLsbD b || overlayBit s a y b)

/-- R264 to R266, R268 to R274: the dots of the second grid, for every glyph width (decided 5: log 6): the second line's cells
in two-line mode; rows 8..10 of the first line's cells, glyph and overlays (D24: log 15), in rows 0..2, and nothing below,
with the extended font; nothing in one-line mode with the 8-row font. -/
def Obligations.SecondGridByMode : Prop :=
  ∀ s t : State, s.pwr = true → ¬(s.twoLine = true ∧ s.extFont = true) → render s = .next t →
    ∀ c y b x, c < s.lw → y < 8 → b < s.cfg.params.glyphWidth →
    x = c * s.cfg.params.glyphWidth + (s.cfg.params.glyphWidth - 1 - b) →
    (s.twoLine = false → s.extFont = false → t.grid1.dot? y x = some false) ∧
    (s.extFont = true → 3 ≤ y → t.grid1.dot? y x = some false) ∧
    (∀ a k, t.grid1.source c = some a → (s.dispD = true → ddramRead s a = .ok k) → (s.dispD = false → k = 0x20#8) →
      (s.twoLine = true → t.grid1.dot? y x = some ((glyphRow s k y).getLsbD b || overlayBit s a y b)) ∧
      (s.extFont = true → y < 3 →
        t.grid1.dot? y x = some ((glyphRow s k (8 + y)).getLsbD b || overlayBit s a (8 + y) b)))

/-- R268, R90 to R92, R95: where the row of a glyph comes from, for every EXT_CG_THRESHOLD and EXT_CG_BASE, and with the
decided ones (log 10); the CGRAM addresses of the decided ones are below 64 (R89), others take the low six bits (log 14). -/
def Obligations.GlyphRowsComeFromCgramOrFont : Prop :=
  ∀ (s : State) (k : Byte) (r : Nat),
    (s.extFont = false → r < 8 → k.toNat < 8 →
      8 * k.toNat + r < 64 ∧ glyphRow s k r = cgByte s (8 * k.toNat + r)) ∧
    (s.extFont = true → k.toNat < s.cfg.params.extCgThreshold →
      glyphRow s k r = cgByte s ((extCgBase s.cfg.params k + r) % 64)) ∧
    (s.cfg.params = decided → s.extFont = true → r < 11 → k.toNat < 6 →
      22 * (k.toNat / 2) + r < 64 ∧ glyphRow s k r = cgByte s (22 * (k.toNat / 2) + r)) ∧
    (s.extFont = false → 8 ≤ k.toNat → ∀ h : r < 16, glyphRow s k r = s.cfg.font.glyphs8[k.toFin][r]) ∧
    (s.extFont = true → s.cfg.params.extCgThreshold ≤ k.toNat →
      ∀ h : r < 16, glyphRow s k r = s.cfg.font.glyphs11[k.toFin][r])

/-- R270, R271, R272, R96 (CURSOR_WHEN_DISPLAY_OFF: log 9; no cursor while CGRAM is addressed, D23: log 15): the cell of DDRAM
address a is the cursor cell exactly when ADDR_CG is false, AC is a, and the display is on or the parameter shows the
cursor with it off; row r of the overlays is CURSOR_OV(EXT_FONT, r) when DISP_C, OR BLINK_OV(EXT_FONT, r) when DISP_B and
BLINK. -/
def Obligations.CursorCellAndItsOverlays : Prop :=
  ∀ s : State,
    (∀ a : Nat, cursorHere s a = true ↔
      s.addrCg = false ∧ s.ac.toNat = a ∧ (s.dispD = true ∨ s.cfg.params.cursorWhenDisplayOff = true)) ∧
    ∀ (r : Nat) (h : r < 11), overlayRow s r =
      (if s.dispC then (if s.extFont then s.cfg.font.cursor11[r] else s.cfg.font.cursor8[r]) else 0#8) |||
      (if s.dispB = true ∧ s.blink = true then (if s.extFont then s.cfg.font.blink11[r] else s.cfg.font.blink8[r])
        else 0#8)

/-- R275, R276: without power every dot of both grids is off, whatever is stored, and the source addresses are those of
the powered block. -/
def Obligations.UnpoweredRenderIsDark : Prop :=
  ∀ s t u : State, s.pwr = false → render s = .next t → render { s with pwr := true } = .next u →
    (∀ row ∈ t.grid0.dots ++ t.grid1.dots, ∀ dot ∈ row, dot = false) ∧
    t.grid0.src = u.grid0.src ∧ t.grid1.src = u.grid1.src ∧
    t.ddram = s.ddram ∧ t.cgram = s.cgram

/-- R267: with the display off what is stored in DDRAM cannot be seen: two states that differ in DDRAM alone render to
the same grids. -/
def Obligations.DisplayOffHidesDdram : Prop :=
  ∀ (s : State) (m : Memory), s.dispD = false → renderGrids { s with ddram := m } = renderGrids s

/-- R270, R271, R272 (D23: log 15): while CGRAM is addressed there is no cursor cell: the cursor and blink flags, BLINK and AC
change no dot. -/
def Obligations.NoCursorWhileCgramIsAddressed : Prop :=
  ∀ (s : State) (c b bl : Bool) (ac : Addr), s.addrCg = true →
    renderGrids { s with dispC := c, dispB := b, blink := bl, ac := ac } = renderGrids s

/-- R261, R270, R272, R351: Render depends on nothing but what R261 lists, and on BLINK only while the blink is enabled and
DDRAM addressed (no cursor cell, and so no blink, while CGRAM is addressed: the spec's decision D23, log 15). -/
def Obligations.RenderReadsOnlyItsView : Prop :=
  (∀ s t : State, SameView s t → renderGrids s = renderGrids t) ∧
  (∀ (s : State) (bl : Bool), s.dispB = false ∨ s.addrCg = true →
    renderGrids { s with blink := bl } = renderGrids s)

/-- R270: "At most one cell of the whole display is the cursor cell", for every SHIFT and in every display configuration. Two
columns, of either grid, whose cells are the cursor cell are the same column; and of the same grid, unless the extended
font draws the one cell on both (R266). -/
def Obligations.AtMostOneCursorCell : Prop :=
  ∀ s t : State, render s = .next t → ∀ (l l' : Bool) (c c' a a' : Nat),
    (t.grid l).source c = some a → cursorHere s a = true → (t.grid l').source c' = some a' → cursorHere s a' = true →
    c = c' ∧ a = a' ∧ (s.twoLine = true ∨ s.extFont = false → l = l')

/-! ### The whole machine -/

/-- R40, R52, R54, R57, R81, R88, R150, R235: the invariant that every step keeps, whichever agent takes it: no fault
recorded, BF clear, two lines and the extended font never together, NIB_PEND only in 4-bit mode, AC a valid address of
the memory addressed, both memories in canonical form, both grids of the size of the mode. -/
def Obligations.EveryStepKeepsTheInvariant : Prop :=
  ∀ s t : State, Inv s → step s = .next t → Inv t

/-- The invariant holds right after reset. -/
def Obligations.ResetMeetsTheInvariant : Prop := Inv State.reset

/-- R110, R301, R350: from a state that meets the invariant the ONLY step that faults is the falling edge that commits a
Cursor/Display Shift while CGRAM is addressed in two-line mode and AC is then in 40..63; it faults with F1_DDRAM_ADDRESS,
that address, and two-line mode. Every other step goes on. -/
def Obligations.OnlyTheShiftHazardFaults : Prop :=
  ∀ s : State, Inv s →
    (∀ a, Hazard s a → step s = .fault (.ddramAddress a.toNat true)) ∧
    ((∀ a, ¬ Hazard s a) → ∃ t, step s = .next t) ∧
    (∀ r, step s = .fault r → ∃ a, Hazard s a ∧ r = .ddramAddress a.toNat true)

/-- R49, R50, R51, R65: the bus width, the line count and the font are changed by a committed FUNCTION_SET and by Reset
(the host's, or power-on) and by nothing else. -/
def Obligations.OnlyFunctionSetAndResetChangeTheMode : Prop :=
  ∀ s t : State, step s = .next t → ¬ ComingReset s →
    (t.fourBit ≠ s.fourBit ∨ t.twoLine ≠ s.twoLine ∨ t.extFont ≠ s.extFont) →
    ComingWriteEdge s false ∧ ∃ dl n f x, decodeIR (committedByte s) = .functionSet dl n f x

/-- R65, R80: a byte of DDRAM or of CGRAM changes only at a committed data write to that memory, at a committed
CLEAR_DISPLAY (DDRAM), and at Reset. -/
def Obligations.OnlyWritesClearAndResetChangeMemory : Prop :=
  ∀ s t : State, step s = .next t → ¬ ComingReset s →
    (∀ p, ddByte t p ≠ ddByte s p → (ComingWriteEdge s true ∧ s.addrCg = false ∧ p = (phys s.ac.toNat s.twoLine).toNat) ∨
      (ComingWriteEdge s false ∧ decodeIR (committedByte s) = .clearDisplay)) ∧
    (∀ a, cgByte t a ≠ cgByte s a → ComingWriteEdge s true ∧ s.addrCg = true ∧ a = s.ac.toNat % 64)

/-- R30, R59, R93: no step changes the construction parameters, and only the blink clock writes BLINK. -/
def Obligations.ParametersAndBlinkAreOutOfReach : Prop :=
  ∀ s t : State, step s = .next t →
    t.cfg = s.cfg ∧ t.fault = s.fault ∧ (s.inputs.head? ≠ some .blinkToggle → t.blink = s.blink)

/-- R94, R302, R340: construction refuses exactly the font stores that are short, with F2_FONT_STORE_SHAPE, the font mode and a
count of rows supplied that is below what the mode needs; any other constructs the state of R340, with the parameters
given. The rest is the model's choice (log 17): the count is the fewest rows over the first 256 entries and both overlays
of the mode, of 16 at most, a missing entry counting 0, so that surplus entries and rows are accepted; the 8-row mode is
reported when both are short; and a GW outside 1..8 is refused. -/
def Obligations.ConstructionChecksTheFontStore : Prop :=
  ∀ (f : Config.FontSupply) (cg : Vector Byte 64) (p : Config.Params) (b : Bool),
    (1 ≤ p.glyphWidth ∧ p.glyphWidth ≤ 8 →
      (f.rowsSupplied false < 8 → construct f cg p b = .fault (.fontStoreShape false (f.rowsSupplied false))) ∧
      (8 ≤ f.rowsSupplied false → f.rowsSupplied true < 11 →
        construct f cg p b = .fault (.fontStoreShape true (f.rowsSupplied true))) ∧
      (8 ≤ f.rowsSupplied false → 11 ≤ f.rowsSupplied true →
        construct f cg p b = .next (State.constructed ⟨fontOfSupply f, cg, p⟩ b))) ∧
    (p.glyphWidth = 0 ∨ 8 < p.glyphWidth → construct f cg p b = .refused (.glyphWidthOutOfRange p.glyphWidth)) ∧
    f.rowsSupplied false ≤ 16 ∧ f.rowsSupplied true ≤ 16 ∧
    ∀ n, n ≤ 16 →
      (n ≤ f.rowsSupplied false ↔ (n = 0 ∨ 256 ≤ f.glyphs8.length) ∧ (∀ rows ∈ f.glyphs8.take 256, n ≤ rows.length) ∧
        n ≤ f.cursor8.length ∧ n ≤ f.blink8.length) ∧
      (n ≤ f.rowsSupplied true ↔ (n = 0 ∨ 256 ≤ f.glyphs11.length) ∧ (∀ rows ∈ f.glyphs11.take 256, n ≤ rows.length) ∧
        n ≤ f.cursor11.length ∧ n ≤ f.blink11.length)

/-- R10: the machine right after reset carries the spec's decided value of every parameter that has one: GW (log 6), LOAD_DIR
(log 7), CLAMP_CMP (log 8), CURSOR_WHEN_DISPLAY_OFF (log 9), EXT_CG_THRESHOLD and EXT_CG_BASE (log 10) and
FOUR_BIT_DATA_READ (log 11). -/
def Obligations.ResetCarriesTheDecidedParameters : Prop :=
  State.reset.cfg.params = decided ∧ decided.glyphWidth = 5 ∧ decided.clampCmp = .gt ∧
  decided.fourBitDataRead = .wholeByte ∧ decided.cursorWhenDisplayOff = true ∧ decided.extCgThreshold = 6 ∧
  (∀ old new : Addr, loadDir decided old new = if old < new then .inc else .dec) ∧
  (∀ k : Byte, extCgBase decided k = (k &&& 0b110#8).toNat * 11)

/-- R57, R262, R173 (D40: log 15): in a state that meets the invariant the dot getter answers exactly inside the grids of the
mode, LW * GW dots wide, and refuses outside. -/
def Obligations.DotsOutsideTheGridAreRefused : Prop :=
  ∀ s : State, Inv s → ∀ (line : Bool) (y x : Nat),
    (y < 8 ∧ x < s.lw * s.cfg.params.glyphWidth → ∃ b, readDot s line y x = .ok b) ∧
    (¬(y < 8 ∧ x < s.lw * s.cfg.params.glyphWidth) → readDot s line y x = .error (.pixelOutsideGrid line y x))
end

