-- ==== Sys2Proof/Laws/Address.lean ====
section
/-! SUPPORT. The address arithmetic: valid addresses and their physical index (20_memory.md R82 to R84), normalization
(42_address_counter.md R230), steps (R231), loads (R232) and the display shift (R234). -/

namespace Sys2Proof
namespace Laws

open Sys2Proof.Machine Sys2Proof.Safety

theorem validDD_iff (a : Nat) (two : Bool) : validDD a two = true ↔
    if two then a ≤ 39 ∨ (64 ≤ a ∧ a ≤ 103) else a ≤ 79 := by
  cases two <;> simp [validDD]

/-- The physical index of an address, by mode (R83). -/
theorem phys_nat (a : Nat) (two : Bool) : phys a two = ((if two && 64 ≤ a then a - 24 else a : Nat) : Int) := by
  unfold phys
  have : decide ((64 : Int) ≤ a) = decide (64 ≤ a) := by simp
  rw [this]
  cases two <;> by_cases h : 64 ≤ a <;> simp only [h, Bool.true_and, Bool.false_and, decide_true, decide_false,
    if_true, if_false, Bool.false_eq_true]
  omega

/-- A valid address has a physical index, below 80. -/
theorem ddramIndex_of_valid {a : Nat} {two : Bool} (h : validDD a two = true) :
    ddramIndex a two = .ok (phys a two).toNat ∧ (phys a two).toNat < ddramSize := by
  rw [validDD_iff] at h
  have hlt : (phys a two).toNat < ddramSize := by
    rw [phys_nat]
    cases two <;> by_cases h64 : 64 ≤ a <;> simp [ddramSize, h64] at h ⊢ <;> omega
  refine ⟨?_, hlt⟩
  unfold ddramIndex
  rw [if_neg, if_neg]
  · rw [phys_nat] at hlt ⊢
    simp only [ddramSize] at hlt
    omega
  · cases two <;> simp at h ⊢ <;> omega

/-- An address that is not valid faults, with the address and the mode (R84, R300). -/
theorem ddramIndex_of_invalid {a : Nat} {two : Bool} (h : validDD a two = false) :
    ddramIndex a two = .error (.ddramAddress a two) := by
  have h' : ¬ validDD a two = true := by simp [h]
  rw [validDD_iff] at h'
  unfold ddramIndex
  by_cases hgap : ((a : Int) < 0 || (two && 40 ≤ (a : Int) && (a : Int) ≤ 63)) = true
  · rw [if_pos hgap]
  · rw [if_neg hgap, if_pos]
    rw [phys_nat]
    cases two <;> by_cases h64 : 64 ≤ a <;> simp [h64] at h' hgap ⊢ <;> omega

theorem ddramIndex_ok {a : Nat} {two : Bool} {p : Nat} (h : ddramIndex a two = .ok p) :
    validDD a two = true ∧ p = (phys a two).toNat ∧ p < ddramSize := by
  cases hv : validDD a two
  · rw [ddramIndex_of_invalid hv] at h
    cases h
  · obtain ⟨h', hlt⟩ := ddramIndex_of_valid hv
    rw [h'] at h
    cases h
    exact ⟨rfl, rfl, hlt⟩

/-- The physical index tells valid addresses apart. -/
theorem phys_injective {a b : Nat} {two : Bool} (ha : validDD a two = true) (hb : validDD b two = true)
    (h : (phys a two).toNat = (phys b two).toNat) : a = b := by
  rw [validDD_iff] at ha hb
  cases two
  · simpa [phys] using h
  · simp only [phys, Bool.true_and, decide_eq_true_eq] at h ha hb
    split at h <;> split at h <;> simp at ha hb <;> omega

theorem topAddr_le (two : Bool) : topAddr two ≤ 103 := by cases two <;> decide

theorem clampDD_le (cmp : ClampCmp) (two : Bool) (v : Int) : clampDD cmp two v ≤ topAddr two := by
  unfold clampDD
  simp only
  split
  · exact le_refl _
  · split
    · exact Nat.zero_le _
    · cases cmp <;> simp_all only [aboveTop, decide_eq_true_eq] <;> omega

theorem deflectGap_valid {two : Bool} {v : Nat} (dir : Dir) (h : v ≤ topAddr two) :
    validDD (deflectGap two v dir) two = true := by
  rw [validDD_iff]
  cases two <;> cases dir <;> simp [deflectGap, topAddr] at h ⊢
  · omega
  · omega
  · split <;> omega
  · split <;> omega

theorem deflectGap_le {two : Bool} {v : Nat} (dir : Dir) (h : v ≤ topAddr two) : deflectGap two v dir ≤ 103 := by
  have := (validDD_iff _ _).1 (deflectGap_valid dir h)
  cases two <;> simp at this <;> omega

/-- NormDD without the width: the two steps of R230. -/
theorem normDD_toNat (cmp : ClampCmp) (two : Bool) (v : Int) (dir : Dir) :
    (normDD cmp two v dir).toNat = deflectGap two (clampDD cmp two v) dir := by
  have := deflectGap_le dir (clampDD_le cmp two v)
  simp only [normDD, BitVec.toNat_ofNat]
  omega

/-- R230: "The result is always a valid DDRAM address", with either reading of CLAMP_CMP. -/
theorem normDD_valid_of (cmp : ClampCmp) (two : Bool) (v : Int) (dir : Dir) :
    validDD (normDD cmp two v dir).toNat two = true := by
  rw [normDD_toNat]
  exact deflectGap_valid dir (clampDD_le cmp two v)

theorem stepCg_toNat (ac : Addr) (d : Dir) : (stepCg ac d).toNat = ((ac.toNat + delta d) % 64).toNat := by
  unfold stepCg
  rw [BitVec.toNat_ofInt]
  have h1 := Int.emod_nonneg ((ac.toNat : Int) + delta d) (b := 64) (by decide)
  have h2 := Int.emod_lt_of_pos ((ac.toNat : Int) + delta d) (b := 64) (by decide)
  congr 1
  exact Int.emod_eq_of_lt h1 (by simp; omega)

/-- A CGRAM step stays in CGRAM (R231). -/
theorem stepCg_lt (ac : Addr) (d : Dir) : (stepCg ac d).toNat < 64 := by
  rw [stepCg_toNat]
  have h1 := Int.emod_nonneg ((ac.toNat : Int) + delta d) (b := 64) (by decide)
  have h2 := Int.emod_lt_of_pos ((ac.toNat : Int) + delta d) (b := 64) (by decide)
  omega

theorem cgramIndex_lt (a : Nat) : cgramIndex a < cgramSize := Nat.mod_lt _ (by decide)

/-- AdvanceAC leaves a valid AC, whatever AC was before (R231, R235). -/
theorem advanceAC_acValid (s : State) (d : Dir) : AcValid (advanceAC s d) := by
  unfold AcValid advanceAC
  cases h : s.addrCg
  · simpa [stepDD] using normDD_valid_of s.cfg.params.clampCmp s.twoLine (s.ac.toNat + delta d) d
  · simpa using stepCg_lt s.ac d

theorem acValid_dd {s : State} (hcg : s.addrCg = false) : AcValid s ↔ validDD s.ac.toNat s.twoLine = true := by
  simp [AcValid, hcg]

theorem acValid_cg {s : State} (hcg : s.addrCg = true) : AcValid s ↔ s.ac.toNat < 64 := by
  simp [AcValid, hcg]

/-- AC validity is a matter of three fields. -/
theorem acValid_congr {s t : State} (h1 : t.addrCg = s.addrCg) (h2 : t.ac = s.ac) (h3 : t.twoLine = s.twoLine) :
    AcValid t ↔ AcValid s := by
  simp [AcValid, h1, h2, h3]

end Laws
end Sys2Proof
end

