-- ==== Sys2Proof/Laws/Construct.lean ====
section
/-! SUPPORT. The rows that a font supply counts as supplying (20_memory.md R94; log 17), said of the supply's lists: the
construction check is then read without unfolding a fold. -/

namespace Sys2Proof
namespace Laws

theorem le_foldl_min {n m : Nat} {l : List (List Byte)} : n ≤ l.foldl (fun k rows => min k rows.length) m ↔
    n ≤ m ∧ ∀ rows ∈ l, n ≤ rows.length := by
  induction l generalizing m with
  | nil => simp
  | cons rows rest ih => simp [ih, and_assoc]

/-- At least n rows are supplied exactly when each of 256 entries has n of them; a missing entry has none. -/
theorem le_glyphRowsSupplied {n : Nat} (h : n ≤ 16) (glyphs : List (List Byte)) : n ≤ Config.glyphRowsSupplied glyphs ↔
    (n = 0 ∨ 256 ≤ glyphs.length) ∧ ∀ rows ∈ glyphs.take 256, n ≤ rows.length := by
  unfold Config.glyphRowsSupplied
  split
  · constructor
    · intro h0
      exact ⟨by omega, fun rows _ => by omega⟩
    · omega
  · rw [le_foldl_min]
    exact ⟨fun ⟨_, hr⟩ => ⟨by omega, hr⟩, fun ⟨_, hr⟩ => ⟨h, hr⟩⟩

/-- An entry counts as 16 rows at most (R9). -/
theorem glyphRowsSupplied_le (glyphs : List (List Byte)) : Config.glyphRowsSupplied glyphs ≤ 16 := by
  unfold Config.glyphRowsSupplied
  split
  · omega
  · exact (le_foldl_min.1 (le_refl _)).1

end Laws
end Sys2Proof
end

