-- ==== Sys2Proof/Laws/Outcome.lean ====
section
/-! SUPPORT. Sequencing of outcomes: what a sequence that goes on, or that faults, says of its parts. -/

namespace Sys2Proof
namespace Laws

open Sys2Proof.Machine

@[simp] theorem andThen_next (s : State) (f : State → Res) : andThen (.next s) f = f s := rfl
@[simp] theorem andThen_fault (r : Fault) (f : State → Res) : andThen (.fault r) f = .fault r := rfl
@[simp] theorem andThen_refused (r : Refusal) (f : State → Res) : andThen (.refused r) f = .refused r := rfl

/-- A sequence goes on exactly when both parts do. -/
theorem andThen_eq_next {o : Res} {f : State → Res} {t : State} :
    andThen o f = .next t ↔ ∃ s, o = .next s ∧ f s = .next t := by
  cases o <;> simp [andThen]

/-- A sequence faults when its first part does, or when its second part does after the first went on. -/
theorem andThen_eq_fault {o : Res} {f : State → Res} {r : Fault} :
    andThen o f = .fault r ↔ o = .fault r ∨ ∃ s, o = .next s ∧ f s = .fault r := by
  cases o <;> simp [andThen]

/-- A sequence refuses when one of its parts does. -/
theorem andThen_eq_refused {o : Res} {f : State → Res} {r : Refusal} :
    andThen o f = .refused r ↔ o = .refused r ∨ ∃ s, o = .next s ∧ f s = .refused r := by
  cases o <;> simp [andThen]

theorem andThen_assoc (o : Res) (f g : State → Res) :
    andThen (andThen o f) g = andThen o fun s => andThen (f s) g := by
  cases o <;> rfl

end Laws
end Sys2Proof
end

