-- ==== Sys2Proof/Laws/State.lean ====
section
/-! SUPPORT. One lemma per field per named update of State: what the update writes and what it leaves. All are true by
rfl; later proofs use them and never unfold an update. -/

namespace Sys2Proof
namespace Laws

open Sys2Proof.Machine

@[simp] theorem setBusy_rs (s : State) (b : Bool) : (s.setBusy b).rs = s.rs := rfl
@[simp] theorem setBusy_rw (s : State) (b : Bool) : (s.setBusy b).rw = s.rw := rfl
@[simp] theorem setBusy_db (s : State) (b : Bool) : (s.setBusy b).db = s.db := rfl
@[simp] theorem setBusy_e (s : State) (b : Bool) : (s.setBusy b).e = s.e := rfl
@[simp] theorem setBusy_pwr (s : State) (b : Bool) : (s.setBusy b).pwr = s.pwr := rfl
@[simp] theorem setBusy_bl (s : State) (b : Bool) : (s.setBusy b).bl = s.bl := rfl
@[simp] theorem setBusy_ir (s : State) (b : Bool) : (s.setBusy b).ir = s.ir := rfl
@[simp] theorem setBusy_dr (s : State) (b : Bool) : (s.setBusy b).dr = s.dr := rfl
@[simp] theorem setBusy_rb (s : State) (b : Bool) : (s.setBusy b).rb = s.rb := rfl
@[simp] theorem setBusy_ac (s : State) (b : Bool) : (s.setBusy b).ac = s.ac := rfl
@[simp] theorem setBusy_bf (s : State) (b : Bool) : (s.setBusy b).bf = b := rfl
@[simp] theorem setBusy_addrCg (s : State) (b : Bool) : (s.setBusy b).addrCg = s.addrCg := rfl
@[simp] theorem setBusy_idFlag (s : State) (b : Bool) : (s.setBusy b).idFlag = s.idFlag := rfl
@[simp] theorem setBusy_shFlag (s : State) (b : Bool) : (s.setBusy b).shFlag = s.shFlag := rfl
@[simp] theorem setBusy_dispD (s : State) (b : Bool) : (s.setBusy b).dispD = s.dispD := rfl
@[simp] theorem setBusy_dispC (s : State) (b : Bool) : (s.setBusy b).dispC = s.dispC := rfl
@[simp] theorem setBusy_dispB (s : State) (b : Bool) : (s.setBusy b).dispB = s.dispB := rfl
@[simp] theorem setBusy_fourBit (s : State) (b : Bool) : (s.setBusy b).fourBit = s.fourBit := rfl
@[simp] theorem setBusy_twoLine (s : State) (b : Bool) : (s.setBusy b).twoLine = s.twoLine := rfl
@[simp] theorem setBusy_extFont (s : State) (b : Bool) : (s.setBusy b).extFont = s.extFont := rfl
@[simp] theorem setBusy_shift (s : State) (b : Bool) : (s.setBusy b).shift = s.shift := rfl
@[simp] theorem setBusy_nibPend (s : State) (b : Bool) : (s.setBusy b).nibPend = s.nibPend := rfl
@[simp] theorem setBusy_rdPhase (s : State) (b : Bool) : (s.setBusy b).rdPhase = s.rdPhase := rfl
@[simp] theorem setBusy_rdDataPhase (s : State) (b : Bool) : (s.setBusy b).rdDataPhase = s.rdDataPhase := rfl
@[simp] theorem setBusy_ddram (s : State) (b : Bool) : (s.setBusy b).ddram = s.ddram := rfl
@[simp] theorem setBusy_cgram (s : State) (b : Bool) : (s.setBusy b).cgram = s.cgram := rfl
@[simp] theorem setBusy_grid0 (s : State) (b : Bool) : (s.setBusy b).grid0 = s.grid0 := rfl
@[simp] theorem setBusy_grid1 (s : State) (b : Bool) : (s.setBusy b).grid1 = s.grid1 := rfl
@[simp] theorem setBusy_blink (s : State) (b : Bool) : (s.setBusy b).blink = s.blink := rfl
@[simp] theorem setBusy_fault (s : State) (b : Bool) : (s.setBusy b).fault = s.fault := rfl
@[simp] theorem setBusy_cfg (s : State) (b : Bool) : (s.setBusy b).cfg = s.cfg := rfl
@[simp] theorem setBusy_inputs (s : State) (b : Bool) : (s.setBusy b).inputs = s.inputs := rfl

@[simp] theorem setGrids_rs (s : State) (g : Grid × Grid) : (s.setGrids g).rs = s.rs := rfl
@[simp] theorem setGrids_rw (s : State) (g : Grid × Grid) : (s.setGrids g).rw = s.rw := rfl
@[simp] theorem setGrids_db (s : State) (g : Grid × Grid) : (s.setGrids g).db = s.db := rfl
@[simp] theorem setGrids_e (s : State) (g : Grid × Grid) : (s.setGrids g).e = s.e := rfl
@[simp] theorem setGrids_pwr (s : State) (g : Grid × Grid) : (s.setGrids g).pwr = s.pwr := rfl
@[simp] theorem setGrids_bl (s : State) (g : Grid × Grid) : (s.setGrids g).bl = s.bl := rfl
@[simp] theorem setGrids_ir (s : State) (g : Grid × Grid) : (s.setGrids g).ir = s.ir := rfl
@[simp] theorem setGrids_dr (s : State) (g : Grid × Grid) : (s.setGrids g).dr = s.dr := rfl
@[simp] theorem setGrids_rb (s : State) (g : Grid × Grid) : (s.setGrids g).rb = s.rb := rfl
@[simp] theorem setGrids_ac (s : State) (g : Grid × Grid) : (s.setGrids g).ac = s.ac := rfl
@[simp] theorem setGrids_bf (s : State) (g : Grid × Grid) : (s.setGrids g).bf = s.bf := rfl
@[simp] theorem setGrids_addrCg (s : State) (g : Grid × Grid) : (s.setGrids g).addrCg = s.addrCg := rfl
@[simp] theorem setGrids_idFlag (s : State) (g : Grid × Grid) : (s.setGrids g).idFlag = s.idFlag := rfl
@[simp] theorem setGrids_shFlag (s : State) (g : Grid × Grid) : (s.setGrids g).shFlag = s.shFlag := rfl
@[simp] theorem setGrids_dispD (s : State) (g : Grid × Grid) : (s.setGrids g).dispD = s.dispD := rfl
@[simp] theorem setGrids_dispC (s : State) (g : Grid × Grid) : (s.setGrids g).dispC = s.dispC := rfl
@[simp] theorem setGrids_dispB (s : State) (g : Grid × Grid) : (s.setGrids g).dispB = s.dispB := rfl
@[simp] theorem setGrids_fourBit (s : State) (g : Grid × Grid) : (s.setGrids g).fourBit = s.fourBit := rfl
@[simp] theorem setGrids_twoLine (s : State) (g : Grid × Grid) : (s.setGrids g).twoLine = s.twoLine := rfl
@[simp] theorem setGrids_extFont (s : State) (g : Grid × Grid) : (s.setGrids g).extFont = s.extFont := rfl
@[simp] theorem setGrids_shift (s : State) (g : Grid × Grid) : (s.setGrids g).shift = s.shift := rfl
@[simp] theorem setGrids_nibPend (s : State) (g : Grid × Grid) : (s.setGrids g).nibPend = s.nibPend := rfl
@[simp] theorem setGrids_rdPhase (s : State) (g : Grid × Grid) : (s.setGrids g).rdPhase = s.rdPhase := rfl
@[simp] theorem setGrids_rdDataPhase (s : State) (g : Grid × Grid) : (s.setGrids g).rdDataPhase = s.rdDataPhase := rfl
@[simp] theorem setGrids_ddram (s : State) (g : Grid × Grid) : (s.setGrids g).ddram = s.ddram := rfl
@[simp] theorem setGrids_cgram (s : State) (g : Grid × Grid) : (s.setGrids g).cgram = s.cgram := rfl
@[simp] theorem setGrids_grid0 (s : State) (g : Grid × Grid) : (s.setGrids g).grid0 = g.1 := rfl
@[simp] theorem setGrids_grid1 (s : State) (g : Grid × Grid) : (s.setGrids g).grid1 = g.2 := rfl
@[simp] theorem setGrids_blink (s : State) (g : Grid × Grid) : (s.setGrids g).blink = s.blink := rfl
@[simp] theorem setGrids_fault (s : State) (g : Grid × Grid) : (s.setGrids g).fault = s.fault := rfl
@[simp] theorem setGrids_cfg (s : State) (g : Grid × Grid) : (s.setGrids g).cfg = s.cfg := rfl
@[simp] theorem setGrids_inputs (s : State) (g : Grid × Grid) : (s.setGrids g).inputs = s.inputs := rfl

@[simp] theorem setEntryMode_rs (s : State) (i h : Bool) : (s.setEntryMode i h).rs = s.rs := rfl
@[simp] theorem setEntryMode_rw (s : State) (i h : Bool) : (s.setEntryMode i h).rw = s.rw := rfl
@[simp] theorem setEntryMode_db (s : State) (i h : Bool) : (s.setEntryMode i h).db = s.db := rfl
@[simp] theorem setEntryMode_e (s : State) (i h : Bool) : (s.setEntryMode i h).e = s.e := rfl
@[simp] theorem setEntryMode_pwr (s : State) (i h : Bool) : (s.setEntryMode i h).pwr = s.pwr := rfl
@[simp] theorem setEntryMode_bl (s : State) (i h : Bool) : (s.setEntryMode i h).bl = s.bl := rfl
@[simp] theorem setEntryMode_ir (s : State) (i h : Bool) : (s.setEntryMode i h).ir = s.ir := rfl
@[simp] theorem setEntryMode_dr (s : State) (i h : Bool) : (s.setEntryMode i h).dr = s.dr := rfl
@[simp] theorem setEntryMode_rb (s : State) (i h : Bool) : (s.setEntryMode i h).rb = s.rb := rfl
@[simp] theorem setEntryMode_ac (s : State) (i h : Bool) : (s.setEntryMode i h).ac = s.ac := rfl
@[simp] theorem setEntryMode_bf (s : State) (i h : Bool) : (s.setEntryMode i h).bf = s.bf := rfl
@[simp] theorem setEntryMode_addrCg (s : State) (i h : Bool) : (s.setEntryMode i h).addrCg = s.addrCg := rfl
@[simp] theorem setEntryMode_idFlag (s : State) (i h : Bool) : (s.setEntryMode i h).idFlag = i := rfl
@[simp] theorem setEntryMode_shFlag (s : State) (i h : Bool) : (s.setEntryMode i h).shFlag = h := rfl
@[simp] theorem setEntryMode_dispD (s : State) (i h : Bool) : (s.setEntryMode i h).dispD = s.dispD := rfl
@[simp] theorem setEntryMode_dispC (s : State) (i h : Bool) : (s.setEntryMode i h).dispC = s.dispC := rfl
@[simp] theorem setEntryMode_dispB (s : State) (i h : Bool) : (s.setEntryMode i h).dispB = s.dispB := rfl
@[simp] theorem setEntryMode_fourBit (s : State) (i h : Bool) : (s.setEntryMode i h).fourBit = s.fourBit := rfl
@[simp] theorem setEntryMode_twoLine (s : State) (i h : Bool) : (s.setEntryMode i h).twoLine = s.twoLine := rfl
@[simp] theorem setEntryMode_extFont (s : State) (i h : Bool) : (s.setEntryMode i h).extFont = s.extFont := rfl
@[simp] theorem setEntryMode_shift (s : State) (i h : Bool) : (s.setEntryMode i h).shift = s.shift := rfl
@[simp] theorem setEntryMode_nibPend (s : State) (i h : Bool) : (s.setEntryMode i h).nibPend = s.nibPend := rfl
@[simp] theorem setEntryMode_rdPhase (s : State) (i h : Bool) : (s.setEntryMode i h).rdPhase = s.rdPhase := rfl
@[simp] theorem setEntryMode_rdDataPhase (s : State) (i h : Bool) : (s.setEntryMode i h).rdDataPhase = s.rdDataPhase := rfl
@[simp] theorem setEntryMode_ddram (s : State) (i h : Bool) : (s.setEntryMode i h).ddram = s.ddram := rfl
@[simp] theorem setEntryMode_cgram (s : State) (i h : Bool) : (s.setEntryMode i h).cgram = s.cgram := rfl
@[simp] theorem setEntryMode_grid0 (s : State) (i h : Bool) : (s.setEntryMode i h).grid0 = s.grid0 := rfl
@[simp] theorem setEntryMode_grid1 (s : State) (i h : Bool) : (s.setEntryMode i h).grid1 = s.grid1 := rfl
@[simp] theorem setEntryMode_blink (s : State) (i h : Bool) : (s.setEntryMode i h).blink = s.blink := rfl
@[simp] theorem setEntryMode_fault (s : State) (i h : Bool) : (s.setEntryMode i h).fault = s.fault := rfl
@[simp] theorem setEntryMode_cfg (s : State) (i h : Bool) : (s.setEntryMode i h).cfg = s.cfg := rfl
@[simp] theorem setEntryMode_inputs (s : State) (i h : Bool) : (s.setEntryMode i h).inputs = s.inputs := rfl

@[simp] theorem setDisplay_rs (s : State) (d c b : Bool) : (s.setDisplay d c b).rs = s.rs := rfl
@[simp] theorem setDisplay_rw (s : State) (d c b : Bool) : (s.setDisplay d c b).rw = s.rw := rfl
@[simp] theorem setDisplay_db (s : State) (d c b : Bool) : (s.setDisplay d c b).db = s.db := rfl
@[simp] theorem setDisplay_e (s : State) (d c b : Bool) : (s.setDisplay d c b).e = s.e := rfl
@[simp] theorem setDisplay_pwr (s : State) (d c b : Bool) : (s.setDisplay d c b).pwr = s.pwr := rfl
@[simp] theorem setDisplay_bl (s : State) (d c b : Bool) : (s.setDisplay d c b).bl = s.bl := rfl
@[simp] theorem setDisplay_ir (s : State) (d c b : Bool) : (s.setDisplay d c b).ir = s.ir := rfl
@[simp] theorem setDisplay_dr (s : State) (d c b : Bool) : (s.setDisplay d c b).dr = s.dr := rfl
@[simp] theorem setDisplay_rb (s : State) (d c b : Bool) : (s.setDisplay d c b).rb = s.rb := rfl
@[simp] theorem setDisplay_ac (s : State) (d c b : Bool) : (s.setDisplay d c b).ac = s.ac := rfl
@[simp] theorem setDisplay_bf (s : State) (d c b : Bool) : (s.setDisplay d c b).bf = s.bf := rfl
@[simp] theorem setDisplay_addrCg (s : State) (d c b : Bool) : (s.setDisplay d c b).addrCg = s.addrCg := rfl
@[simp] theorem setDisplay_idFlag (s : State) (d c b : Bool) : (s.setDisplay d c b).idFlag = s.idFlag := rfl
@[simp] theorem setDisplay_shFlag (s : State) (d c b : Bool) : (s.setDisplay d c b).shFlag = s.shFlag := rfl
@[simp] theorem setDisplay_dispD (s : State) (d c b : Bool) : (s.setDisplay d c b).dispD = d := rfl
@[simp] theorem setDisplay_dispC (s : State) (d c b : Bool) : (s.setDisplay d c b).dispC = c := rfl
@[simp] theorem setDisplay_dispB (s : State) (d c b : Bool) : (s.setDisplay d c b).dispB = b := rfl
@[simp] theorem setDisplay_fourBit (s : State) (d c b : Bool) : (s.setDisplay d c b).fourBit = s.fourBit := rfl
@[simp] theorem setDisplay_twoLine (s : State) (d c b : Bool) : (s.setDisplay d c b).twoLine = s.twoLine := rfl
@[simp] theorem setDisplay_extFont (s : State) (d c b : Bool) : (s.setDisplay d c b).extFont = s.extFont := rfl
@[simp] theorem setDisplay_shift (s : State) (d c b : Bool) : (s.setDisplay d c b).shift = s.shift := rfl
@[simp] theorem setDisplay_nibPend (s : State) (d c b : Bool) : (s.setDisplay d c b).nibPend = s.nibPend := rfl
@[simp] theorem setDisplay_rdPhase (s : State) (d c b : Bool) : (s.setDisplay d c b).rdPhase = s.rdPhase := rfl
@[simp] theorem setDisplay_rdDataPhase (s : State) (d c b : Bool) : (s.setDisplay d c b).rdDataPhase = s.rdDataPhase := rfl
@[simp] theorem setDisplay_ddram (s : State) (d c b : Bool) : (s.setDisplay d c b).ddram = s.ddram := rfl
@[simp] theorem setDisplay_cgram (s : State) (d c b : Bool) : (s.setDisplay d c b).cgram = s.cgram := rfl
@[simp] theorem setDisplay_grid0 (s : State) (d c b : Bool) : (s.setDisplay d c b).grid0 = s.grid0 := rfl
@[simp] theorem setDisplay_grid1 (s : State) (d c b : Bool) : (s.setDisplay d c b).grid1 = s.grid1 := rfl
@[simp] theorem setDisplay_blink (s : State) (d c b : Bool) : (s.setDisplay d c b).blink = s.blink := rfl
@[simp] theorem setDisplay_fault (s : State) (d c b : Bool) : (s.setDisplay d c b).fault = s.fault := rfl
@[simp] theorem setDisplay_cfg (s : State) (d c b : Bool) : (s.setDisplay d c b).cfg = s.cfg := rfl
@[simp] theorem setDisplay_inputs (s : State) (d c b : Bool) : (s.setDisplay d c b).inputs = s.inputs := rfl

@[simp] theorem setFunction_rs (s : State) (dl n f : Bool) : (s.setFunction dl n f).rs = s.rs := rfl
@[simp] theorem setFunction_rw (s : State) (dl n f : Bool) : (s.setFunction dl n f).rw = s.rw := rfl
@[simp] theorem setFunction_db (s : State) (dl n f : Bool) : (s.setFunction dl n f).db = s.db := rfl
@[simp] theorem setFunction_e (s : State) (dl n f : Bool) : (s.setFunction dl n f).e = s.e := rfl
@[simp] theorem setFunction_pwr (s : State) (dl n f : Bool) : (s.setFunction dl n f).pwr = s.pwr := rfl
@[simp] theorem setFunction_bl (s : State) (dl n f : Bool) : (s.setFunction dl n f).bl = s.bl := rfl
@[simp] theorem setFunction_ir (s : State) (dl n f : Bool) : (s.setFunction dl n f).ir = s.ir := rfl
@[simp] theorem setFunction_dr (s : State) (dl n f : Bool) : (s.setFunction dl n f).dr = s.dr := rfl
@[simp] theorem setFunction_rb (s : State) (dl n f : Bool) : (s.setFunction dl n f).rb = s.rb := rfl
@[simp] theorem setFunction_ac (s : State) (dl n f : Bool) : (s.setFunction dl n f).ac = s.ac := rfl
@[simp] theorem setFunction_bf (s : State) (dl n f : Bool) : (s.setFunction dl n f).bf = s.bf := rfl
@[simp] theorem setFunction_addrCg (s : State) (dl n f : Bool) : (s.setFunction dl n f).addrCg = s.addrCg := rfl
@[simp] theorem setFunction_idFlag (s : State) (dl n f : Bool) : (s.setFunction dl n f).idFlag = s.idFlag := rfl
@[simp] theorem setFunction_shFlag (s : State) (dl n f : Bool) : (s.setFunction dl n f).shFlag = s.shFlag := rfl
@[simp] theorem setFunction_dispD (s : State) (dl n f : Bool) : (s.setFunction dl n f).dispD = s.dispD := rfl
@[simp] theorem setFunction_dispC (s : State) (dl n f : Bool) : (s.setFunction dl n f).dispC = s.dispC := rfl
@[simp] theorem setFunction_dispB (s : State) (dl n f : Bool) : (s.setFunction dl n f).dispB = s.dispB := rfl
@[simp] theorem setFunction_fourBit (s : State) (dl n f : Bool) : (s.setFunction dl n f).fourBit = !dl := rfl
@[simp] theorem setFunction_twoLine (s : State) (dl n f : Bool) : (s.setFunction dl n f).twoLine = n := rfl
@[simp] theorem setFunction_extFont (s : State) (dl n f : Bool) : (s.setFunction dl n f).extFont = (f && !n) := rfl
@[simp] theorem setFunction_shift (s : State) (dl n f : Bool) : (s.setFunction dl n f).shift = s.shift := rfl
@[simp] theorem setFunction_nibPend (s : State) (dl n f : Bool) : (s.setFunction dl n f).nibPend = s.nibPend := rfl
@[simp] theorem setFunction_rdPhase (s : State) (dl n f : Bool) : (s.setFunction dl n f).rdPhase = s.rdPhase := rfl
@[simp] theorem setFunction_rdDataPhase (s : State) (dl n f : Bool) : (s.setFunction dl n f).rdDataPhase = s.rdDataPhase := rfl
@[simp] theorem setFunction_ddram (s : State) (dl n f : Bool) : (s.setFunction dl n f).ddram = s.ddram := rfl
@[simp] theorem setFunction_cgram (s : State) (dl n f : Bool) : (s.setFunction dl n f).cgram = s.cgram := rfl
@[simp] theorem setFunction_grid0 (s : State) (dl n f : Bool) : (s.setFunction dl n f).grid0 = s.grid0 := rfl
@[simp] theorem setFunction_grid1 (s : State) (dl n f : Bool) : (s.setFunction dl n f).grid1 = s.grid1 := rfl
@[simp] theorem setFunction_blink (s : State) (dl n f : Bool) : (s.setFunction dl n f).blink = s.blink := rfl
@[simp] theorem setFunction_fault (s : State) (dl n f : Bool) : (s.setFunction dl n f).fault = s.fault := rfl
@[simp] theorem setFunction_cfg (s : State) (dl n f : Bool) : (s.setFunction dl n f).cfg = s.cfg := rfl
@[simp] theorem setFunction_inputs (s : State) (dl n f : Bool) : (s.setFunction dl n f).inputs = s.inputs := rfl

@[simp] theorem homeAddress_rs (s : State) : (homeAddress s).rs = s.rs := rfl
@[simp] theorem homeAddress_rw (s : State) : (homeAddress s).rw = s.rw := rfl
@[simp] theorem homeAddress_db (s : State) : (homeAddress s).db = s.db := rfl
@[simp] theorem homeAddress_e (s : State) : (homeAddress s).e = s.e := rfl
@[simp] theorem homeAddress_pwr (s : State) : (homeAddress s).pwr = s.pwr := rfl
@[simp] theorem homeAddress_bl (s : State) : (homeAddress s).bl = s.bl := rfl
@[simp] theorem homeAddress_ir (s : State) : (homeAddress s).ir = s.ir := rfl
@[simp] theorem homeAddress_dr (s : State) : (homeAddress s).dr = s.dr := rfl
@[simp] theorem homeAddress_rb (s : State) : (homeAddress s).rb = s.rb := rfl
@[simp] theorem homeAddress_ac (s : State) : (homeAddress s).ac = 0#7 := rfl
@[simp] theorem homeAddress_bf (s : State) : (homeAddress s).bf = s.bf := rfl
@[simp] theorem homeAddress_addrCg (s : State) : (homeAddress s).addrCg = false := rfl
@[simp] theorem homeAddress_idFlag (s : State) : (homeAddress s).idFlag = s.idFlag := rfl
@[simp] theorem homeAddress_shFlag (s : State) : (homeAddress s).shFlag = s.shFlag := rfl
@[simp] theorem homeAddress_dispD (s : State) : (homeAddress s).dispD = s.dispD := rfl
@[simp] theorem homeAddress_dispC (s : State) : (homeAddress s).dispC = s.dispC := rfl
@[simp] theorem homeAddress_dispB (s : State) : (homeAddress s).dispB = s.dispB := rfl
@[simp] theorem homeAddress_fourBit (s : State) : (homeAddress s).fourBit = s.fourBit := rfl
@[simp] theorem homeAddress_twoLine (s : State) : (homeAddress s).twoLine = s.twoLine := rfl
@[simp] theorem homeAddress_extFont (s : State) : (homeAddress s).extFont = s.extFont := rfl
@[simp] theorem homeAddress_shift (s : State) : (homeAddress s).shift = 0 := rfl
@[simp] theorem homeAddress_nibPend (s : State) : (homeAddress s).nibPend = s.nibPend := rfl
@[simp] theorem homeAddress_rdPhase (s : State) : (homeAddress s).rdPhase = s.rdPhase := rfl
@[simp] theorem homeAddress_rdDataPhase (s : State) : (homeAddress s).rdDataPhase = s.rdDataPhase := rfl
@[simp] theorem homeAddress_ddram (s : State) : (homeAddress s).ddram = s.ddram := rfl
@[simp] theorem homeAddress_cgram (s : State) : (homeAddress s).cgram = s.cgram := rfl
@[simp] theorem homeAddress_grid0 (s : State) : (homeAddress s).grid0 = s.grid0 := rfl
@[simp] theorem homeAddress_grid1 (s : State) : (homeAddress s).grid1 = s.grid1 := rfl
@[simp] theorem homeAddress_blink (s : State) : (homeAddress s).blink = s.blink := rfl
@[simp] theorem homeAddress_fault (s : State) : (homeAddress s).fault = s.fault := rfl
@[simp] theorem homeAddress_cfg (s : State) : (homeAddress s).cfg = s.cfg := rfl
@[simp] theorem homeAddress_inputs (s : State) : (homeAddress s).inputs = s.inputs := rfl

@[simp] theorem ddramClear_rs (s : State) : (ddramClear s).rs = s.rs := rfl
@[simp] theorem ddramClear_rw (s : State) : (ddramClear s).rw = s.rw := rfl
@[simp] theorem ddramClear_db (s : State) : (ddramClear s).db = s.db := rfl
@[simp] theorem ddramClear_e (s : State) : (ddramClear s).e = s.e := rfl
@[simp] theorem ddramClear_pwr (s : State) : (ddramClear s).pwr = s.pwr := rfl
@[simp] theorem ddramClear_bl (s : State) : (ddramClear s).bl = s.bl := rfl
@[simp] theorem ddramClear_ir (s : State) : (ddramClear s).ir = s.ir := rfl
@[simp] theorem ddramClear_dr (s : State) : (ddramClear s).dr = s.dr := rfl
@[simp] theorem ddramClear_rb (s : State) : (ddramClear s).rb = s.rb := rfl
@[simp] theorem ddramClear_ac (s : State) : (ddramClear s).ac = s.ac := rfl
@[simp] theorem ddramClear_bf (s : State) : (ddramClear s).bf = s.bf := rfl
@[simp] theorem ddramClear_addrCg (s : State) : (ddramClear s).addrCg = s.addrCg := rfl
@[simp] theorem ddramClear_idFlag (s : State) : (ddramClear s).idFlag = s.idFlag := rfl
@[simp] theorem ddramClear_shFlag (s : State) : (ddramClear s).shFlag = s.shFlag := rfl
@[simp] theorem ddramClear_dispD (s : State) : (ddramClear s).dispD = s.dispD := rfl
@[simp] theorem ddramClear_dispC (s : State) : (ddramClear s).dispC = s.dispC := rfl
@[simp] theorem ddramClear_dispB (s : State) : (ddramClear s).dispB = s.dispB := rfl
@[simp] theorem ddramClear_fourBit (s : State) : (ddramClear s).fourBit = s.fourBit := rfl
@[simp] theorem ddramClear_twoLine (s : State) : (ddramClear s).twoLine = s.twoLine := rfl
@[simp] theorem ddramClear_extFont (s : State) : (ddramClear s).extFont = s.extFont := rfl
@[simp] theorem ddramClear_shift (s : State) : (ddramClear s).shift = s.shift := rfl
@[simp] theorem ddramClear_nibPend (s : State) : (ddramClear s).nibPend = s.nibPend := rfl
@[simp] theorem ddramClear_rdPhase (s : State) : (ddramClear s).rdPhase = s.rdPhase := rfl
@[simp] theorem ddramClear_rdDataPhase (s : State) : (ddramClear s).rdDataPhase = s.rdDataPhase := rfl
@[simp] theorem ddramClear_ddram (s : State) : (ddramClear s).ddram = [] := rfl
@[simp] theorem ddramClear_cgram (s : State) : (ddramClear s).cgram = s.cgram := rfl
@[simp] theorem ddramClear_grid0 (s : State) : (ddramClear s).grid0 = s.grid0 := rfl
@[simp] theorem ddramClear_grid1 (s : State) : (ddramClear s).grid1 = s.grid1 := rfl
@[simp] theorem ddramClear_blink (s : State) : (ddramClear s).blink = s.blink := rfl
@[simp] theorem ddramClear_fault (s : State) : (ddramClear s).fault = s.fault := rfl
@[simp] theorem ddramClear_cfg (s : State) : (ddramClear s).cfg = s.cfg := rfl
@[simp] theorem ddramClear_inputs (s : State) : (ddramClear s).inputs = s.inputs := rfl

@[simp] theorem cgramRestore_rs (s : State) : (cgramRestore s).rs = s.rs := rfl
@[simp] theorem cgramRestore_rw (s : State) : (cgramRestore s).rw = s.rw := rfl
@[simp] theorem cgramRestore_db (s : State) : (cgramRestore s).db = s.db := rfl
@[simp] theorem cgramRestore_e (s : State) : (cgramRestore s).e = s.e := rfl
@[simp] theorem cgramRestore_pwr (s : State) : (cgramRestore s).pwr = s.pwr := rfl
@[simp] theorem cgramRestore_bl (s : State) : (cgramRestore s).bl = s.bl := rfl
@[simp] theorem cgramRestore_ir (s : State) : (cgramRestore s).ir = s.ir := rfl
@[simp] theorem cgramRestore_dr (s : State) : (cgramRestore s).dr = s.dr := rfl
@[simp] theorem cgramRestore_rb (s : State) : (cgramRestore s).rb = s.rb := rfl
@[simp] theorem cgramRestore_ac (s : State) : (cgramRestore s).ac = s.ac := rfl
@[simp] theorem cgramRestore_bf (s : State) : (cgramRestore s).bf = s.bf := rfl
@[simp] theorem cgramRestore_addrCg (s : State) : (cgramRestore s).addrCg = s.addrCg := rfl
@[simp] theorem cgramRestore_idFlag (s : State) : (cgramRestore s).idFlag = s.idFlag := rfl
@[simp] theorem cgramRestore_shFlag (s : State) : (cgramRestore s).shFlag = s.shFlag := rfl
@[simp] theorem cgramRestore_dispD (s : State) : (cgramRestore s).dispD = s.dispD := rfl
@[simp] theorem cgramRestore_dispC (s : State) : (cgramRestore s).dispC = s.dispC := rfl
@[simp] theorem cgramRestore_dispB (s : State) : (cgramRestore s).dispB = s.dispB := rfl
@[simp] theorem cgramRestore_fourBit (s : State) : (cgramRestore s).fourBit = s.fourBit := rfl
@[simp] theorem cgramRestore_twoLine (s : State) : (cgramRestore s).twoLine = s.twoLine := rfl
@[simp] theorem cgramRestore_extFont (s : State) : (cgramRestore s).extFont = s.extFont := rfl
@[simp] theorem cgramRestore_shift (s : State) : (cgramRestore s).shift = s.shift := rfl
@[simp] theorem cgramRestore_nibPend (s : State) : (cgramRestore s).nibPend = s.nibPend := rfl
@[simp] theorem cgramRestore_rdPhase (s : State) : (cgramRestore s).rdPhase = s.rdPhase := rfl
@[simp] theorem cgramRestore_rdDataPhase (s : State) : (cgramRestore s).rdDataPhase = s.rdDataPhase := rfl
@[simp] theorem cgramRestore_ddram (s : State) : (cgramRestore s).ddram = s.ddram := rfl
@[simp] theorem cgramRestore_cgram (s : State) : (cgramRestore s).cgram = [] := rfl
@[simp] theorem cgramRestore_grid0 (s : State) : (cgramRestore s).grid0 = s.grid0 := rfl
@[simp] theorem cgramRestore_grid1 (s : State) : (cgramRestore s).grid1 = s.grid1 := rfl
@[simp] theorem cgramRestore_blink (s : State) : (cgramRestore s).blink = s.blink := rfl
@[simp] theorem cgramRestore_fault (s : State) : (cgramRestore s).fault = s.fault := rfl
@[simp] theorem cgramRestore_cfg (s : State) : (cgramRestore s).cfg = s.cfg := rfl
@[simp] theorem cgramRestore_inputs (s : State) : (cgramRestore s).inputs = s.inputs := rfl

@[simp] theorem advanceAC_rs (s : State) (d : Dir) : (advanceAC s d).rs = s.rs := rfl
@[simp] theorem advanceAC_rw (s : State) (d : Dir) : (advanceAC s d).rw = s.rw := rfl
@[simp] theorem advanceAC_db (s : State) (d : Dir) : (advanceAC s d).db = s.db := rfl
@[simp] theorem advanceAC_e (s : State) (d : Dir) : (advanceAC s d).e = s.e := rfl
@[simp] theorem advanceAC_pwr (s : State) (d : Dir) : (advanceAC s d).pwr = s.pwr := rfl
@[simp] theorem advanceAC_bl (s : State) (d : Dir) : (advanceAC s d).bl = s.bl := rfl
@[simp] theorem advanceAC_ir (s : State) (d : Dir) : (advanceAC s d).ir = s.ir := rfl
@[simp] theorem advanceAC_dr (s : State) (d : Dir) : (advanceAC s d).dr = s.dr := rfl
@[simp] theorem advanceAC_rb (s : State) (d : Dir) : (advanceAC s d).rb = s.rb := rfl
@[simp] theorem advanceAC_ac (s : State) (d : Dir) : (advanceAC s d).ac = (if s.addrCg then stepCg s.ac d else stepDD s.cfg.params.clampCmp s.twoLine s.ac d) := rfl
@[simp] theorem advanceAC_bf (s : State) (d : Dir) : (advanceAC s d).bf = s.bf := rfl
@[simp] theorem advanceAC_addrCg (s : State) (d : Dir) : (advanceAC s d).addrCg = s.addrCg := rfl
@[simp] theorem advanceAC_idFlag (s : State) (d : Dir) : (advanceAC s d).idFlag = s.idFlag := rfl
@[simp] theorem advanceAC_shFlag (s : State) (d : Dir) : (advanceAC s d).shFlag = s.shFlag := rfl
@[simp] theorem advanceAC_dispD (s : State) (d : Dir) : (advanceAC s d).dispD = s.dispD := rfl
@[simp] theorem advanceAC_dispC (s : State) (d : Dir) : (advanceAC s d).dispC = s.dispC := rfl
@[simp] theorem advanceAC_dispB (s : State) (d : Dir) : (advanceAC s d).dispB = s.dispB := rfl
@[simp] theorem advanceAC_fourBit (s : State) (d : Dir) : (advanceAC s d).fourBit = s.fourBit := rfl
@[simp] theorem advanceAC_twoLine (s : State) (d : Dir) : (advanceAC s d).twoLine = s.twoLine := rfl
@[simp] theorem advanceAC_extFont (s : State) (d : Dir) : (advanceAC s d).extFont = s.extFont := rfl
@[simp] theorem advanceAC_shift (s : State) (d : Dir) : (advanceAC s d).shift = s.shift := rfl
@[simp] theorem advanceAC_nibPend (s : State) (d : Dir) : (advanceAC s d).nibPend = s.nibPend := rfl
@[simp] theorem advanceAC_rdPhase (s : State) (d : Dir) : (advanceAC s d).rdPhase = s.rdPhase := rfl
@[simp] theorem advanceAC_rdDataPhase (s : State) (d : Dir) : (advanceAC s d).rdDataPhase = s.rdDataPhase := rfl
@[simp] theorem advanceAC_ddram (s : State) (d : Dir) : (advanceAC s d).ddram = s.ddram := rfl
@[simp] theorem advanceAC_cgram (s : State) (d : Dir) : (advanceAC s d).cgram = s.cgram := rfl
@[simp] theorem advanceAC_grid0 (s : State) (d : Dir) : (advanceAC s d).grid0 = s.grid0 := rfl
@[simp] theorem advanceAC_grid1 (s : State) (d : Dir) : (advanceAC s d).grid1 = s.grid1 := rfl
@[simp] theorem advanceAC_blink (s : State) (d : Dir) : (advanceAC s d).blink = s.blink := rfl
@[simp] theorem advanceAC_fault (s : State) (d : Dir) : (advanceAC s d).fault = s.fault := rfl
@[simp] theorem advanceAC_cfg (s : State) (d : Dir) : (advanceAC s d).cfg = s.cfg := rfl
@[simp] theorem advanceAC_inputs (s : State) (d : Dir) : (advanceAC s d).inputs = s.inputs := rfl

@[simp] theorem loadDD_rs (s : State) (a : Addr) : (loadDD s a).rs = s.rs := rfl
@[simp] theorem loadDD_rw (s : State) (a : Addr) : (loadDD s a).rw = s.rw := rfl
@[simp] theorem loadDD_db (s : State) (a : Addr) : (loadDD s a).db = s.db := rfl
@[simp] theorem loadDD_e (s : State) (a : Addr) : (loadDD s a).e = s.e := rfl
@[simp] theorem loadDD_pwr (s : State) (a : Addr) : (loadDD s a).pwr = s.pwr := rfl
@[simp] theorem loadDD_bl (s : State) (a : Addr) : (loadDD s a).bl = s.bl := rfl
@[simp] theorem loadDD_ir (s : State) (a : Addr) : (loadDD s a).ir = s.ir := rfl
@[simp] theorem loadDD_dr (s : State) (a : Addr) : (loadDD s a).dr = s.dr := rfl
@[simp] theorem loadDD_rb (s : State) (a : Addr) : (loadDD s a).rb = s.rb := rfl
@[simp] theorem loadDD_ac (s : State) (a : Addr) : (loadDD s a).ac = normDD s.cfg.params.clampCmp s.twoLine a.toNat (loadDir s.cfg.params s.ac a) := rfl
@[simp] theorem loadDD_bf (s : State) (a : Addr) : (loadDD s a).bf = s.bf := rfl
@[simp] theorem loadDD_addrCg (s : State) (a : Addr) : (loadDD s a).addrCg = s.addrCg := rfl
@[simp] theorem loadDD_idFlag (s : State) (a : Addr) : (loadDD s a).idFlag = s.idFlag := rfl
@[simp] theorem loadDD_shFlag (s : State) (a : Addr) : (loadDD s a).shFlag = s.shFlag := rfl
@[simp] theorem loadDD_dispD (s : State) (a : Addr) : (loadDD s a).dispD = s.dispD := rfl
@[simp] theorem loadDD_dispC (s : State) (a : Addr) : (loadDD s a).dispC = s.dispC := rfl
@[simp] theorem loadDD_dispB (s : State) (a : Addr) : (loadDD s a).dispB = s.dispB := rfl
@[simp] theorem loadDD_fourBit (s : State) (a : Addr) : (loadDD s a).fourBit = s.fourBit := rfl
@[simp] theorem loadDD_twoLine (s : State) (a : Addr) : (loadDD s a).twoLine = s.twoLine := rfl
@[simp] theorem loadDD_extFont (s : State) (a : Addr) : (loadDD s a).extFont = s.extFont := rfl
@[simp] theorem loadDD_shift (s : State) (a : Addr) : (loadDD s a).shift = s.shift := rfl
@[simp] theorem loadDD_nibPend (s : State) (a : Addr) : (loadDD s a).nibPend = s.nibPend := rfl
@[simp] theorem loadDD_rdPhase (s : State) (a : Addr) : (loadDD s a).rdPhase = s.rdPhase := rfl
@[simp] theorem loadDD_rdDataPhase (s : State) (a : Addr) : (loadDD s a).rdDataPhase = s.rdDataPhase := rfl
@[simp] theorem loadDD_ddram (s : State) (a : Addr) : (loadDD s a).ddram = s.ddram := rfl
@[simp] theorem loadDD_cgram (s : State) (a : Addr) : (loadDD s a).cgram = s.cgram := rfl
@[simp] theorem loadDD_grid0 (s : State) (a : Addr) : (loadDD s a).grid0 = s.grid0 := rfl
@[simp] theorem loadDD_grid1 (s : State) (a : Addr) : (loadDD s a).grid1 = s.grid1 := rfl
@[simp] theorem loadDD_blink (s : State) (a : Addr) : (loadDD s a).blink = s.blink := rfl
@[simp] theorem loadDD_fault (s : State) (a : Addr) : (loadDD s a).fault = s.fault := rfl
@[simp] theorem loadDD_cfg (s : State) (a : Addr) : (loadDD s a).cfg = s.cfg := rfl
@[simp] theorem loadDD_inputs (s : State) (a : Addr) : (loadDD s a).inputs = s.inputs := rfl

@[simp] theorem shiftDisplay_rs (s : State) (d : Int) : (shiftDisplay s d).rs = s.rs := rfl
@[simp] theorem shiftDisplay_rw (s : State) (d : Int) : (shiftDisplay s d).rw = s.rw := rfl
@[simp] theorem shiftDisplay_db (s : State) (d : Int) : (shiftDisplay s d).db = s.db := rfl
@[simp] theorem shiftDisplay_e (s : State) (d : Int) : (shiftDisplay s d).e = s.e := rfl
@[simp] theorem shiftDisplay_pwr (s : State) (d : Int) : (shiftDisplay s d).pwr = s.pwr := rfl
@[simp] theorem shiftDisplay_bl (s : State) (d : Int) : (shiftDisplay s d).bl = s.bl := rfl
@[simp] theorem shiftDisplay_ir (s : State) (d : Int) : (shiftDisplay s d).ir = s.ir := rfl
@[simp] theorem shiftDisplay_dr (s : State) (d : Int) : (shiftDisplay s d).dr = s.dr := rfl
@[simp] theorem shiftDisplay_rb (s : State) (d : Int) : (shiftDisplay s d).rb = s.rb := rfl
@[simp] theorem shiftDisplay_ac (s : State) (d : Int) : (shiftDisplay s d).ac = s.ac := rfl
@[simp] theorem shiftDisplay_bf (s : State) (d : Int) : (shiftDisplay s d).bf = s.bf := rfl
@[simp] theorem shiftDisplay_addrCg (s : State) (d : Int) : (shiftDisplay s d).addrCg = s.addrCg := rfl
@[simp] theorem shiftDisplay_idFlag (s : State) (d : Int) : (shiftDisplay s d).idFlag = s.idFlag := rfl
@[simp] theorem shiftDisplay_shFlag (s : State) (d : Int) : (shiftDisplay s d).shFlag = s.shFlag := rfl
@[simp] theorem shiftDisplay_dispD (s : State) (d : Int) : (shiftDisplay s d).dispD = s.dispD := rfl
@[simp] theorem shiftDisplay_dispC (s : State) (d : Int) : (shiftDisplay s d).dispC = s.dispC := rfl
@[simp] theorem shiftDisplay_dispB (s : State) (d : Int) : (shiftDisplay s d).dispB = s.dispB := rfl
@[simp] theorem shiftDisplay_fourBit (s : State) (d : Int) : (shiftDisplay s d).fourBit = s.fourBit := rfl
@[simp] theorem shiftDisplay_twoLine (s : State) (d : Int) : (shiftDisplay s d).twoLine = s.twoLine := rfl
@[simp] theorem shiftDisplay_extFont (s : State) (d : Int) : (shiftDisplay s d).extFont = s.extFont := rfl
@[simp] theorem shiftDisplay_shift (s : State) (d : Int) : (shiftDisplay s d).shift = shiftBy s.lw s.shift d := rfl
@[simp] theorem shiftDisplay_nibPend (s : State) (d : Int) : (shiftDisplay s d).nibPend = s.nibPend := rfl
@[simp] theorem shiftDisplay_rdPhase (s : State) (d : Int) : (shiftDisplay s d).rdPhase = s.rdPhase := rfl
@[simp] theorem shiftDisplay_rdDataPhase (s : State) (d : Int) : (shiftDisplay s d).rdDataPhase = s.rdDataPhase := rfl
@[simp] theorem shiftDisplay_ddram (s : State) (d : Int) : (shiftDisplay s d).ddram = s.ddram := rfl
@[simp] theorem shiftDisplay_cgram (s : State) (d : Int) : (shiftDisplay s d).cgram = s.cgram := rfl
@[simp] theorem shiftDisplay_grid0 (s : State) (d : Int) : (shiftDisplay s d).grid0 = s.grid0 := rfl
@[simp] theorem shiftDisplay_grid1 (s : State) (d : Int) : (shiftDisplay s d).grid1 = s.grid1 := rfl
@[simp] theorem shiftDisplay_blink (s : State) (d : Int) : (shiftDisplay s d).blink = s.blink := rfl
@[simp] theorem shiftDisplay_fault (s : State) (d : Int) : (shiftDisplay s d).fault = s.fault := rfl
@[simp] theorem shiftDisplay_cfg (s : State) (d : Int) : (shiftDisplay s d).cfg = s.cfg := rfl
@[simp] theorem shiftDisplay_inputs (s : State) (d : Int) : (shiftDisplay s d).inputs = s.inputs := rfl

@[simp] theorem cgramWrite_rs (s : State) (a : Nat) (v : Byte) : (cgramWrite s a v).rs = s.rs := rfl
@[simp] theorem cgramWrite_rw (s : State) (a : Nat) (v : Byte) : (cgramWrite s a v).rw = s.rw := rfl
@[simp] theorem cgramWrite_db (s : State) (a : Nat) (v : Byte) : (cgramWrite s a v).db = s.db := rfl
@[simp] theorem cgramWrite_e (s : State) (a : Nat) (v : Byte) : (cgramWrite s a v).e = s.e := rfl
@[simp] theorem cgramWrite_pwr (s : State) (a : Nat) (v : Byte) : (cgramWrite s a v).pwr = s.pwr := rfl
@[simp] theorem cgramWrite_bl (s : State) (a : Nat) (v : Byte) : (cgramWrite s a v).bl = s.bl := rfl
@[simp] theorem cgramWrite_ir (s : State) (a : Nat) (v : Byte) : (cgramWrite s a v).ir = s.ir := rfl
@[simp] theorem cgramWrite_dr (s : State) (a : Nat) (v : Byte) : (cgramWrite s a v).dr = s.dr := rfl
@[simp] theorem cgramWrite_rb (s : State) (a : Nat) (v : Byte) : (cgramWrite s a v).rb = s.rb := rfl
@[simp] theorem cgramWrite_ac (s : State) (a : Nat) (v : Byte) : (cgramWrite s a v).ac = s.ac := rfl
@[simp] theorem cgramWrite_bf (s : State) (a : Nat) (v : Byte) : (cgramWrite s a v).bf = s.bf := rfl
@[simp] theorem cgramWrite_addrCg (s : State) (a : Nat) (v : Byte) : (cgramWrite s a v).addrCg = s.addrCg := rfl
@[simp] theorem cgramWrite_idFlag (s : State) (a : Nat) (v : Byte) : (cgramWrite s a v).idFlag = s.idFlag := rfl
@[simp] theorem cgramWrite_shFlag (s : State) (a : Nat) (v : Byte) : (cgramWrite s a v).shFlag = s.shFlag := rfl
@[simp] theorem cgramWrite_dispD (s : State) (a : Nat) (v : Byte) : (cgramWrite s a v).dispD = s.dispD := rfl
@[simp] theorem cgramWrite_dispC (s : State) (a : Nat) (v : Byte) : (cgramWrite s a v).dispC = s.dispC := rfl
@[simp] theorem cgramWrite_dispB (s : State) (a : Nat) (v : Byte) : (cgramWrite s a v).dispB = s.dispB := rfl
@[simp] theorem cgramWrite_fourBit (s : State) (a : Nat) (v : Byte) : (cgramWrite s a v).fourBit = s.fourBit := rfl
@[simp] theorem cgramWrite_twoLine (s : State) (a : Nat) (v : Byte) : (cgramWrite s a v).twoLine = s.twoLine := rfl
@[simp] theorem cgramWrite_extFont (s : State) (a : Nat) (v : Byte) : (cgramWrite s a v).extFont = s.extFont := rfl
@[simp] theorem cgramWrite_shift (s : State) (a : Nat) (v : Byte) : (cgramWrite s a v).shift = s.shift := rfl
@[simp] theorem cgramWrite_nibPend (s : State) (a : Nat) (v : Byte) : (cgramWrite s a v).nibPend = s.nibPend := rfl
@[simp] theorem cgramWrite_rdPhase (s : State) (a : Nat) (v : Byte) : (cgramWrite s a v).rdPhase = s.rdPhase := rfl
@[simp] theorem cgramWrite_rdDataPhase (s : State) (a : Nat) (v : Byte) : (cgramWrite s a v).rdDataPhase = s.rdDataPhase := rfl
@[simp] theorem cgramWrite_ddram (s : State) (a : Nat) (v : Byte) : (cgramWrite s a v).ddram = s.ddram := rfl
@[simp] theorem cgramWrite_cgram (s : State) (a : Nat) (v : Byte) : (cgramWrite s a v).cgram = Memory.write (cgramUnlisted s.cfg) s.cgram (cgramIndex a) v := rfl
@[simp] theorem cgramWrite_grid0 (s : State) (a : Nat) (v : Byte) : (cgramWrite s a v).grid0 = s.grid0 := rfl
@[simp] theorem cgramWrite_grid1 (s : State) (a : Nat) (v : Byte) : (cgramWrite s a v).grid1 = s.grid1 := rfl
@[simp] theorem cgramWrite_blink (s : State) (a : Nat) (v : Byte) : (cgramWrite s a v).blink = s.blink := rfl
@[simp] theorem cgramWrite_fault (s : State) (a : Nat) (v : Byte) : (cgramWrite s a v).fault = s.fault := rfl
@[simp] theorem cgramWrite_cfg (s : State) (a : Nat) (v : Byte) : (cgramWrite s a v).cfg = s.cfg := rfl
@[simp] theorem cgramWrite_inputs (s : State) (a : Nat) (v : Byte) : (cgramWrite s a v).inputs = s.inputs := rfl

/-! RenormDD and the latch of a write branch, so their untouched fields are told apart by cases. -/

@[simp] theorem renormDD_rs (s : State) : (renormDD s).rs = s.rs := by unfold renormDD; split <;> rfl
@[simp] theorem renormDD_rw (s : State) : (renormDD s).rw = s.rw := by unfold renormDD; split <;> rfl
@[simp] theorem renormDD_db (s : State) : (renormDD s).db = s.db := by unfold renormDD; split <;> rfl
@[simp] theorem renormDD_e (s : State) : (renormDD s).e = s.e := by unfold renormDD; split <;> rfl
@[simp] theorem renormDD_pwr (s : State) : (renormDD s).pwr = s.pwr := by unfold renormDD; split <;> rfl
@[simp] theorem renormDD_bl (s : State) : (renormDD s).bl = s.bl := by unfold renormDD; split <;> rfl
@[simp] theorem renormDD_ir (s : State) : (renormDD s).ir = s.ir := by unfold renormDD; split <;> rfl
@[simp] theorem renormDD_dr (s : State) : (renormDD s).dr = s.dr := by unfold renormDD; split <;> rfl
@[simp] theorem renormDD_rb (s : State) : (renormDD s).rb = s.rb := by unfold renormDD; split <;> rfl
@[simp] theorem renormDD_bf (s : State) : (renormDD s).bf = s.bf := by unfold renormDD; split <;> rfl
@[simp] theorem renormDD_addrCg (s : State) : (renormDD s).addrCg = s.addrCg := by unfold renormDD; split <;> rfl
@[simp] theorem renormDD_idFlag (s : State) : (renormDD s).idFlag = s.idFlag := by unfold renormDD; split <;> rfl
@[simp] theorem renormDD_shFlag (s : State) : (renormDD s).shFlag = s.shFlag := by unfold renormDD; split <;> rfl
@[simp] theorem renormDD_dispD (s : State) : (renormDD s).dispD = s.dispD := by unfold renormDD; split <;> rfl
@[simp] theorem renormDD_dispC (s : State) : (renormDD s).dispC = s.dispC := by unfold renormDD; split <;> rfl
@[simp] theorem renormDD_dispB (s : State) : (renormDD s).dispB = s.dispB := by unfold renormDD; split <;> rfl
@[simp] theorem renormDD_fourBit (s : State) : (renormDD s).fourBit = s.fourBit := by unfold renormDD; split <;> rfl
@[simp] theorem renormDD_twoLine (s : State) : (renormDD s).twoLine = s.twoLine := by unfold renormDD; split <;> rfl
@[simp] theorem renormDD_extFont (s : State) : (renormDD s).extFont = s.extFont := by unfold renormDD; split <;> rfl
@[simp] theorem renormDD_shift (s : State) : (renormDD s).shift = s.shift := by unfold renormDD; split <;> rfl
@[simp] theorem renormDD_nibPend (s : State) : (renormDD s).nibPend = s.nibPend := by unfold renormDD; split <;> rfl
@[simp] theorem renormDD_rdPhase (s : State) : (renormDD s).rdPhase = s.rdPhase := by unfold renormDD; split <;> rfl
@[simp] theorem renormDD_rdDataPhase (s : State) : (renormDD s).rdDataPhase = s.rdDataPhase := by unfold renormDD; split <;> rfl
@[simp] theorem renormDD_ddram (s : State) : (renormDD s).ddram = s.ddram := by unfold renormDD; split <;> rfl
@[simp] theorem renormDD_cgram (s : State) : (renormDD s).cgram = s.cgram := by unfold renormDD; split <;> rfl
@[simp] theorem renormDD_grid0 (s : State) : (renormDD s).grid0 = s.grid0 := by unfold renormDD; split <;> rfl
@[simp] theorem renormDD_grid1 (s : State) : (renormDD s).grid1 = s.grid1 := by unfold renormDD; split <;> rfl
@[simp] theorem renormDD_blink (s : State) : (renormDD s).blink = s.blink := by unfold renormDD; split <;> rfl
@[simp] theorem renormDD_fault (s : State) : (renormDD s).fault = s.fault := by unfold renormDD; split <;> rfl
@[simp] theorem renormDD_cfg (s : State) : (renormDD s).cfg = s.cfg := by unfold renormDD; split <;> rfl
@[simp] theorem renormDD_inputs (s : State) : (renormDD s).inputs = s.inputs := by unfold renormDD; split <;> rfl

@[simp] theorem latch_rs (d : Bool) (s : State) : (latch d s).rs = s.rs := by
  unfold latch latch4 latch8; split <;> split <;> rfl
@[simp] theorem latch_rw (d : Bool) (s : State) : (latch d s).rw = s.rw := by
  unfold latch latch4 latch8; split <;> split <;> rfl
@[simp] theorem latch_db (d : Bool) (s : State) : (latch d s).db = s.db := by
  unfold latch latch4 latch8; split <;> split <;> rfl
@[simp] theorem latch_e (d : Bool) (s : State) : (latch d s).e = s.e := by
  unfold latch latch4 latch8; split <;> split <;> rfl
@[simp] theorem latch_pwr (d : Bool) (s : State) : (latch d s).pwr = s.pwr := by
  unfold latch latch4 latch8; split <;> split <;> rfl
@[simp] theorem latch_bl (d : Bool) (s : State) : (latch d s).bl = s.bl := by
  unfold latch latch4 latch8; split <;> split <;> rfl
@[simp] theorem latch_rb (d : Bool) (s : State) : (latch d s).rb = s.rb := by
  unfold latch latch4 latch8; split <;> split <;> rfl
@[simp] theorem latch_ac (d : Bool) (s : State) : (latch d s).ac = s.ac := by
  unfold latch latch4 latch8; split <;> split <;> rfl
@[simp] theorem latch_bf (d : Bool) (s : State) : (latch d s).bf = s.bf := by
  unfold latch latch4 latch8; split <;> split <;> rfl
@[simp] theorem latch_addrCg (d : Bool) (s : State) : (latch d s).addrCg = s.addrCg := by
  unfold latch latch4 latch8; split <;> split <;> rfl
@[simp] theorem latch_idFlag (d : Bool) (s : State) : (latch d s).idFlag = s.idFlag := by
  unfold latch latch4 latch8; split <;> split <;> rfl
@[simp] theorem latch_shFlag (d : Bool) (s : State) : (latch d s).shFlag = s.shFlag := by
  unfold latch latch4 latch8; split <;> split <;> rfl
@[simp] theorem latch_dispD (d : Bool) (s : State) : (latch d s).dispD = s.dispD := by
  unfold latch latch4 latch8; split <;> split <;> rfl
@[simp] theorem latch_dispC (d : Bool) (s : State) : (latch d s).dispC = s.dispC := by
  unfold latch latch4 latch8; split <;> split <;> rfl
@[simp] theorem latch_dispB (d : Bool) (s : State) : (latch d s).dispB = s.dispB := by
  unfold latch latch4 latch8; split <;> split <;> rfl
@[simp] theorem latch_fourBit (d : Bool) (s : State) : (latch d s).fourBit = s.fourBit := by
  unfold latch latch4 latch8; split <;> split <;> rfl
@[simp] theorem latch_twoLine (d : Bool) (s : State) : (latch d s).twoLine = s.twoLine := by
  unfold latch latch4 latch8; split <;> split <;> rfl
@[simp] theorem latch_extFont (d : Bool) (s : State) : (latch d s).extFont = s.extFont := by
  unfold latch latch4 latch8; split <;> split <;> rfl
@[simp] theorem latch_shift (d : Bool) (s : State) : (latch d s).shift = s.shift := by
  unfold latch latch4 latch8; split <;> split <;> rfl
@[simp] theorem latch_rdPhase (d : Bool) (s : State) : (latch d s).rdPhase = s.rdPhase := by
  unfold latch latch4 latch8; split <;> split <;> rfl
@[simp] theorem latch_rdDataPhase (d : Bool) (s : State) : (latch d s).rdDataPhase = s.rdDataPhase := by
  unfold latch latch4 latch8; split <;> split <;> rfl
@[simp] theorem latch_ddram (d : Bool) (s : State) : (latch d s).ddram = s.ddram := by
  unfold latch latch4 latch8; split <;> split <;> rfl
@[simp] theorem latch_cgram (d : Bool) (s : State) : (latch d s).cgram = s.cgram := by
  unfold latch latch4 latch8; split <;> split <;> rfl
@[simp] theorem latch_grid0 (d : Bool) (s : State) : (latch d s).grid0 = s.grid0 := by
  unfold latch latch4 latch8; split <;> split <;> rfl
@[simp] theorem latch_grid1 (d : Bool) (s : State) : (latch d s).grid1 = s.grid1 := by
  unfold latch latch4 latch8; split <;> split <;> rfl
@[simp] theorem latch_blink (d : Bool) (s : State) : (latch d s).blink = s.blink := by
  unfold latch latch4 latch8; split <;> split <;> rfl
@[simp] theorem latch_fault (d : Bool) (s : State) : (latch d s).fault = s.fault := by
  unfold latch latch4 latch8; split <;> split <;> rfl
@[simp] theorem latch_cfg (d : Bool) (s : State) : (latch d s).cfg = s.cfg := by
  unfold latch latch4 latch8; split <;> split <;> rfl
@[simp] theorem latch_inputs (d : Bool) (s : State) : (latch d s).inputs = s.inputs := by
  unfold latch latch4 latch8; split <;> split <;> rfl

/-- LW is a matter of TWO_LINE alone. -/
theorem lw_congr {s t : State} (h : s.twoLine = t.twoLine) : s.lw = t.lw := by simp [State.lw, h]

end Laws
end Sys2Proof
end

