-- ==== Sys2Proof/Laws/Render.lean ====
section
/-! SUPPORT. What Render does, said once (43_rendering.md R263 to R278): the addresses it reads are valid, so it answers
a next state that differs in the two grids alone; the grids have the size of the mode; and it reads no more of the state
than R261 says. -/

namespace Sys2Proof
namespace Laws

open Sys2Proof.Machine Sys2Proof.Safety

theorem lw_pos (s : State) : 0 < s.lw := by
  unfold State.lw lineWidth
  split <;> decide

theorem shiftedColumn_lt (s : State) {w : Nat} (hw : 0 < w) (c : Nat) : shiftedColumn s w c < w := by
  unfold shiftedColumn
  have h1 := Int.emod_nonneg ((c : Int) - s.shift) (b := w) (by omega)
  have h2 := Int.emod_lt_of_pos ((c : Int) - s.shift) (b := w) (by omega)
  omega

/-- R263: every address of the first grid is valid. -/
theorem firstLine_valid (s : State) : ∀ a ∈ firstLine s, validDD a s.twoLine = true := by
  intro a ha
  simp only [firstLine, List.mem_map] at ha
  obtain ⟨c, -, rfl⟩ := ha
  have := shiftedColumn_lt s (lw_pos s) c
  rw [validDD_iff]
  unfold State.lw lineWidth at this
  cases h : s.twoLine <;> simp [h] at this ⊢ <;> unfold State.lw lineWidth <;> simp [h] <;> omega

/-- R264: every address of the second grid is valid in two-line mode. -/
theorem secondLine_valid {s : State} (h : s.twoLine = true) {a : Nat}
    (ha : a ∈ (List.range 40).map fun c => 64 + shiftedColumn s 40 c) : validDD a s.twoLine = true := by
  simp only [List.mem_map] at ha
  obtain ⟨c, -, rfl⟩ := ha
  have := shiftedColumn_lt s (w := 40) (by decide) c
  rw [validDD_iff]
  simp [h]
  omega

/-- The code drawn at a valid address (R267). -/
def codeAt (s : State) (a : Nat) : Byte :=
  if s.dispD then Memory.read ddramUnlisted s.ddram (phys a s.twoLine).toNat else blankCode

/-- The cell drawn at a valid address. -/
def cellAt (s : State) (a : Nat) : Cell := ⟨a, codeAt s a⟩

theorem shownCode_of_valid {s : State} {a : Nat} (h : validDD a s.twoLine = true) :
    shownCode s a = .ok (codeAt s a) := by
  unfold shownCode codeAt ddramRead
  rw [(ddramIndex_of_valid h).1]
  split <;> rfl

theorem lineCells_of_valid {s : State} : ∀ {line : List Nat}, (∀ a ∈ line, validDD a s.twoLine = true) →
    lineCells s line = .ok (line.map (cellAt s))
  | [], _ => rfl
  | a :: rest, h => by
    rw [lineCells, shownCode_of_valid (h a List.mem_cons_self),
      lineCells_of_valid fun b hb => h b (List.mem_cons_of_mem _ hb)]
    rfl

/-- The cells of the first grid. -/
def cells0 (s : State) : List Cell := (firstLine s).map (cellAt s)

/-- The cells of the second line. -/
def cells1 (s : State) : List Cell :=
  if s.twoLine then ((List.range 40).map fun c => 64 + shiftedColumn s 40 c).map (cellAt s) else []

theorem secondCells_eq (s : State) : secondCells s = .ok (cells1 s) := by
  unfold secondCells cells1 secondLine
  split
  · simp only
    exact lineCells_of_valid fun a ha => secondLine_valid ‹_› ha
  · rfl

/-- The two grids that Render writes. -/
def grids (s : State) : Grid × Grid := drawGrids s (cells0 s) (cells1 s)

theorem renderGrids_eq (s : State) : renderGrids s = .ok (grids s) := by
  unfold renderGrids
  rw [lineCells_of_valid (firstLine_valid s)]
  simp only [secondCells_eq]
  rfl

/-- Render, whole: it goes on, and writes the two grids and nothing else. -/
theorem render_eq (s : State) : render s = .next (s.setGrids (grids s)) := by
  unfold render
  rw [renderGrids_eq]

/-- Render reads no more of the state than R261 says. -/
theorem grids_congr {s t : State} (h : SameView s t) : grids s = grids t := by
  obtain ⟨⟩ := s
  obtain ⟨⟩ := t
  obtain ⟨h1, h2, h3, h4, h5, h6, h7, h8, h9, h10, h11, h12, h13⟩ := h
  simp only at h1 h2 h3 h4 h5 h6 h7 h8 h9 h10 h11 h12 h13
  subst h1 h2 h3 h4 h5 h6 h7 h8 h9 h10 h11 h12 h13
  rfl

theorem rowDots_length (gw : Nat) (b : Byte) : (rowDots gw b).length = gw := by simp [rowDots]

theorem drawRow_length (s : State) (cells : List Cell) (r : Nat) :
    (drawRow s cells r).length = cells.length * s.cfg.params.glyphWidth := by
  induction cells with
  | nil => simp [drawRow]
  | cons c rest ih =>
    simp only [drawRow, List.flatMap_cons, List.length_append, rowDots_length, List.length_cons] at ih ⊢
    rw [ih, Nat.succ_mul, Nat.add_comm]

theorem darkRow_length (s : State) : (darkRow s).length = s.lw * s.cfg.params.glyphWidth := by simp [darkRow]

theorem cells0_length (s : State) : (cells0 s).length = s.lw := by simp [cells0, firstLine]

theorem cells1_length {s : State} (h : s.twoLine = true) : (cells1 s).length = s.lw := by
  simp [cells1, h, State.lw, lineWidth]

theorem borrowedRow_length (s : State) (cells : List Cell) (y : Nat) (h : cells.length = s.lw) :
    (borrowedRow s cells y).length = s.lw * s.cfg.params.glyphWidth := by
  unfold borrowedRow
  split
  · rw [drawRow_length, h]
  · exact darkRow_length s

theorem row1_length (s : State) (y : Nat) : (row1 s (cells0 s) (cells1 s) y).length = s.lw * s.cfg.params.glyphWidth := by
  unfold row1
  split
  · have h1 := cells1_length ‹_›
    simp [orRow, borrowedRow_length s _ y (cells0_length s), borrowedRow_length s _ y h1, drawRow_length, h1]
  · exact borrowedRow_length s _ y (cells0_length s)

theorem gatePower_length {s : State} {row : List Bool} (h : row.length = s.lw * s.cfg.params.glyphWidth) :
    (gatePower s row).length = s.lw * s.cfg.params.glyphWidth := by
  unfold gatePower
  split
  · exact h
  · exact darkRow_length s

/-- R57, R58, R262: the grids that Render writes have the size of the mode. -/
theorem grids_fit (s : State) : GridFits s.cfg.params.glyphWidth s.lw (grids s).1 ∧ GridFits s.cfg.params.glyphWidth s.lw (grids s).2 := by
  refine ⟨⟨by simp [grids, drawGrids], ?_, by simp [grids, drawGrids, cells0_length]⟩,
    ⟨by simp [grids, drawGrids], ?_, ?_⟩⟩
  · intro row h
    simp only [grids, drawGrids, List.mem_map] at h
    obtain ⟨y, -, rfl⟩ := h
    exact gatePower_length (by rw [row0, drawRow_length, cells0_length])
  · intro row h
    simp only [grids, drawGrids, List.mem_map] at h
    obtain ⟨y, -, rfl⟩ := h
    exact gatePower_length (row1_length s y)
  · simp only [grids, drawGrids, src1]
    split
    · simp [cells1_length ‹_›]
    · split <;> simp [cells0_length]

theorem render_eq_next {s t : State} (h : render s = .next t) : t = s.setGrids (grids s) := by
  rw [render_eq] at h
  exact (Host.Outcome.next.inj h).symm

/-- The cell at a column of the first grid. -/
theorem cells0_get (s : State) {c : Nat} (h : c < s.lw) :
    (cells0 s)[c]? = some (cellAt s (shiftedColumn s s.lw c)) := by
  simp [cells0, firstLine, h]

/-- The cell at a column of the second line. -/
theorem cells1_get (s : State) (ht : s.twoLine = true) {c : Nat} (h : c < 40) :
    (cells1 s)[c]? = some (cellAt s (64 + shiftedColumn s 40 c)) := by
  simp [cells1, ht, h]

/-- R269: dot i of a row of a glyph is bit GW - 1 - i. -/
theorem rowDots_get {gw : Nat} (b : Byte) {i : Nat} (h : i < gw) : (rowDots gw b)[i]? = some (b.getLsbD (gw - 1 - i)) := by
  simp [rowDots, h]

/-- R262, R269: the dots of a drawn row, cell by cell. -/
theorem drawRow_get (s : State) (cells : List Cell) (r : Nat) : ∀ {c i : Nat} {k : Cell}, cells[c]? = some k →
    i < s.cfg.params.glyphWidth → (drawRow s cells r)[c * s.cfg.params.glyphWidth + i]? =
      some ((cellRow s k r).getLsbD (s.cfg.params.glyphWidth - 1 - i)) := by
  induction cells with
  | nil =>
    intro c i k h
    simp at h
  | cons a rest ih =>
    intro c i k h hi
    have hl : (rowDots s.cfg.params.glyphWidth (cellRow s a r)).length = s.cfg.params.glyphWidth := rowDots_length _ _
    show (rowDots s.cfg.params.glyphWidth (cellRow s a r) ++ drawRow s rest r)[c * s.cfg.params.glyphWidth + i]? = _
    cases c with
    | zero =>
      simp only [List.getElem?_cons_zero, Option.some.injEq] at h
      subst h
      rw [List.getElem?_append_left (by omega)]
      simpa using rowDots_get _ hi
    | succ c =>
      rw [List.getElem?_cons_succ] at h
      have hs : (c + 1) * s.cfg.params.glyphWidth = c * s.cfg.params.glyphWidth + s.cfg.params.glyphWidth := Nat.succ_mul _ _
      rw [List.getElem?_append_right (by omega), hl, hs,
        show c * s.cfg.params.glyphWidth + s.cfg.params.glyphWidth + i - s.cfg.params.glyphWidth =
          c * s.cfg.params.glyphWidth + i by omega]
      exact ih h hi

/-- R273: the bits of a row of a cell are the glyph's or the overlays'. -/
theorem cellRow_getLsbD (s : State) (a : Nat) (k : Byte) (r b : Nat) : (cellRow s ⟨a, k⟩ r).getLsbD b =
    ((glyphRow s k r).getLsbD b || (cursorHere s a && (overlayRow s r).getLsbD b)) := by
  simp only [cellRow]
  cases cursorHere s a <;> simp

/-- R267: the code drawn at a valid address. -/
theorem codeAt_of {s : State} {a : Nat} {k : Byte} (ha : validDD a s.twoLine = true)
    (h1 : s.dispD = true → ddramRead s a = .ok k) (h2 : s.dispD = false → k = 0x20#8) : codeAt s a = k := by
  have := shownCode_of_valid ha
  unfold shownCode at this
  cases hd : s.dispD
  · rw [hd] at this
    simp only [Bool.false_eq_true, if_false] at this
    rw [h2 hd, ← Except.ok.inj this]
    rfl
  · rw [hd] at this
    simp only [if_true, h1 hd] at this
    exact (Except.ok.inj this).symm

/-- The dots of a powered render are the dots of its rows. -/
theorem drawGrids_dot (s : State) (hp : s.pwr = true) {y : Nat} (hy : y < 8) (x : Nat) (c0 c1 : List Cell) :
    (drawGrids s c0 c1).1.dot? y x = (drawRow s c0 y)[x]? ∧ (drawGrids s c0 c1).2.dot? y x = (row1 s c0 c1 y)[x]? := by
  simp [drawGrids, Grid.dot?, hy, gatePower, hp, row0]

/-- A column and a dot of its cell are inside the row. -/
theorem cell_lt {w gw c i : Nat} (hc : c < w) (hi : i < gw) : c * gw + i < w * gw := by
  have : (c + 1) * gw ≤ w * gw := Nat.mul_le_mul_right gw hc
  rw [Nat.succ_mul] at this
  omega

theorem darkRow_get (s : State) {c i : Nat} (hc : c < s.lw) (hi : i < s.cfg.params.glyphWidth) :
    (darkRow s)[c * s.cfg.params.glyphWidth + i]? = some false := by
  simp only [darkRow]
  rw [List.getElem?_replicate, if_pos (cell_lt hc hi)]

/-- R263: different columns show different addresses. -/
theorem shiftedColumn_injective (s : State) {w c c' : Nat} (hc : c < w) (hc' : c' < w)
    (h : shiftedColumn s w c = shiftedColumn s w c') : c = c' := by
  unfold shiftedColumn at h
  have h1 := Int.emod_nonneg ((c : Int) - s.shift) (b := w) (by omega)
  have h2 := Int.emod_nonneg ((c' : Int) - s.shift) (b := w) (by omega)
  have h3 : ((c : Int) - s.shift) % w = ((c' : Int) - s.shift) % w := by omega
  have h4 := Int.emod_eq_emod_iff_emod_sub_eq_zero.1 h3
  rw [show ((c : Int) - s.shift) - ((c' : Int) - s.shift) = c - c' by ring] at h4
  obtain ⟨k, hk⟩ := Int.dvd_of_emod_eq_zero h4
  have : k = 0 := by
    rcases lt_trichotomy k 0 with h | h | h
    · nlinarith
    · exact h
    · nlinarith
  subst this
  omega

end Laws
end Sys2Proof
end

