-- ==== Sys2Proof/Laws/Exec.lean ====
section
/-! SUPPORT. What the shared parts of a cycle do, said once: Execute is exec of the decoded instruction, RefreshRB reads the
addressed cell, a processed edge renders what its body leaves, and a latch writes the selected register. -/

namespace Sys2Proof
namespace Laws

open Sys2Proof.Machine Sys2Proof.Safety

/-- A handler set applied through the table is the table's answer applied. -/
theorem selectIR_map {α β : Type} (f : α → β) (ir : Byte) (h : IRHandlers α) (k : IRHandlers β)
    (h1 : ∀ a, k.setDdramAddr a = f (h.setDdramAddr a)) (h2 : ∀ a, k.setCgramAddr a = f (h.setCgramAddr a))
    (h3 : ∀ a b c d, k.functionSet a b c d = f (h.functionSet a b c d))
    (h4 : ∀ a b c, k.shift a b c = f (h.shift a b c))
    (h5 : ∀ a b c, k.displayControl a b c = f (h.displayControl a b c))
    (h6 : ∀ a b, k.entryModeSet a b = f (h.entryModeSet a b)) (h7 : ∀ a, k.returnHome a = f (h.returnHome a))
    (h8 : k.clearDisplay = f h.clearDisplay) (h9 : k.nopZero = f h.nopZero) :
    selectIR ir k = f (selectIR ir h) := by
  unfold selectIR
  simp only [h1, h2, h3, h4, h5, h6, h7, h8, h9, apply_ite f]

/-- R190: Execute(ir) is exec of the instruction that IR decodes to. -/
theorem executeIR_eq_exec (ir : Byte) (s : State) : executeIR ir s = exec (decodeIR ir) s :=
  selectIR_map (exec · s) ir instrHandlers (execHandlers s) (fun _ => rfl) (fun _ => rfl) (fun _ _ _ _ => rfl)
    (fun _ _ _ => rfl) (fun _ _ _ => rfl) (fun _ _ => rfl) (fun _ => rfl) rfl rfl

/-- What IR decodes to is an instruction of IR, never a bus cycle. -/
theorem decodeIR_isCommand (ir : Byte) : (decodeIR ir).isCommand = true :=
  (selectIR_map Instr.isCommand ir instrHandlers
    ⟨fun _ => true, fun _ => true, fun _ _ _ _ => true, fun _ _ _ => true, fun _ _ _ => true, fun _ _ => true,
      fun _ => true, true, true⟩ (fun _ => rfl) (fun _ => rfl) (fun _ _ _ _ => rfl) (fun _ _ _ => rfl)
    (fun _ _ _ => rfl) (fun _ _ => rfl) (fun _ => rfl) rfl rfl).symm.trans (by unfold selectIR; simp)

/-- R168: RefreshRB writes RB from the addressed cell, or faults. -/
theorem refreshRB_eq (s : State) : refreshRB s = match addressed s with
    | .ok v => .next { s with rb := v }
    | .error r => .fault r := by
  unfold refreshRB addressed raiseFault
  by_cases h : s.addrCg = true
  · rw [if_pos h, if_pos h]
  · rw [if_neg h, if_neg h]
    first
      | done
      | cases ddramRead s (s.ac.toNat : Int) <;> rfl

/-- The addressed cell can be read unless it is a DDRAM cell off the map. -/
theorem addressed_ok {s : State} (h : s.addrCg = false → validDD s.ac.toNat s.twoLine = true) :
    ∃ v, addressed s = .ok v := by
  unfold addressed
  cases hc : s.addrCg
  · exact ⟨_, by simp [ddramRead, (ddramIndex_of_valid (h hc)).1]; rfl⟩
  · exact ⟨_, rfl⟩

/-- With a valid AC the addressed cell can be read. -/
theorem addressed_of_valid {s : State} (h : AcValid s) : ∃ v, addressed s = .ok v :=
  addressed_ok fun hc => (acValid_dd hc).1 h

/-- With DDRAM addressed at an invalid AC it cannot. -/
theorem addressed_of_invalid {s : State} (hc : s.addrCg = false) (h : validDD s.ac.toNat s.twoLine = false) :
    addressed s = .error (.ddramAddress s.ac.toNat s.twoLine) := by
  simp [addressed, hc, ddramRead, ddramIndex_of_invalid h]

/-- The addressed cell is a matter of AC, its mode, and the memories. -/
theorem addressed_congr {s t : State} (h1 : t.addrCg = s.addrCg) (h2 : t.ac = s.ac) (h3 : t.twoLine = s.twoLine)
    (h4 : t.ddram = s.ddram) (h5 : t.cgram = s.cgram) (h6 : t.cfg = s.cfg) : addressed t = addressed s := by
  simp only [addressed, cgramRead, ddramRead, h1, h2, h3, h4, h5, h6]

/-- A committed part: what the commit left, and then RefreshRB. -/
theorem committed_eq (o : Res) : committed o = andThen o fun u => match addressed u with
    | .ok v => .next { u with rb := v }
    | .error r => .fault r := by
  unfold committed
  congr 1
  funext u
  exact refreshRB_eq u

/-- A processed edge goes on exactly when its body does; it then clears BF and rewrites the grids. -/
theorem processed_eq (body : State → Res) (s : State) :
    processed body s = andThen (body (s.setBusy true)) fun u =>
      .next ((u.setBusy false).setGrids (grids (u.setBusy false))) := by
  unfold processed
  congr 1
  funext u
  exact render_eq _

/-- R163, R164: the latch of a write cycle that completes its byte, on the instruction side. -/
theorem latch_instruction_complete {s : State} (h : completesByte s = true) :
    latch false s = { s with ir := committedByte s, nibPend := if s.fourBit then false else s.nibPend } := by
  unfold completesByte at h
  cases hf : s.fourBit <;> simp_all [latch, latch4, latch8, committedByte, nibbleInto]

/-- The same on the data side. -/
theorem latch_data_complete {s : State} (h : completesByte s = true) :
    latch true s = { s with dr := committedData s, nibPend := if s.fourBit then false else s.nibPend } := by
  unfold completesByte at h
  cases hf : s.fourBit <;> simp_all [latch, latch4, latch8, committedData, nibbleInto]

/-- A byte that a falling edge does not complete is the first half of a 4-bit pair. -/
theorem not_completesByte {s : State} (h : completesByte s = false) : s.fourBit = true ∧ s.nibPend = false := by
  simpa [completesByte] using h

/-- The end of a committed edge (R162): RB refreshed with v, BF clear, both grids rendered. -/
def endState (u : State) (v : Byte) : State :=
  { u with bf := false, rb := v }.setGrids (grids { u with bf := false, rb := v })

/-- The grids of a state whose view is that of another. -/
theorem rendered_of_view {s t : State} (h : SameView t s) (h0 : t.grid0 = (grids s).1) (h1 : t.grid1 = (grids s).2) :
    Rendered t := by
  unfold Rendered
  rw [renderGrids_eq, grids_congr h, h0, h1]

/-- A render leaves the grids rendered. -/
theorem setGrids_rendered (s : State) : Rendered (s.setGrids (grids s)) :=
  rendered_of_view (s := s) ⟨rfl, rfl, rfl, rfl, rfl, rfl, rfl, rfl, rfl, rfl, rfl, rfl, rfl⟩ rfl rfl

/-- `endState` is what `CommitEnds` says. -/
theorem endState_ends {u : State} {v : Byte} (h : addressed u = .ok v) : CommitEnds u (endState u v) :=
  ⟨rfl, h, setGrids_rendered _⟩

/-- R162, R166: the falling edge of WRITE_INSTRUCTION when it completes the byte. -/
theorem writeInstruction_commit {s : State} (h : completesByte s = true) :
    exec (.writeInstruction .falling) s = andThen (exec (decodeIR (committedByte s)) (commandState s)) fun u =>
      match addressed u with
      | .ok v => .next (endState u v)
      | .error r => .fault r := by
  have hb : completesByte (s.setBusy true) = true := h
  show processed (writeFall false fun s => executeIR s.ir s) s = _
  rw [processed_eq]
  unfold writeFall
  simp only
  rw [if_pos (by simpa [completesByte] using hb), latch_instruction_complete hb, committed_eq, executeIR_eq_exec,
    andThen_assoc]
  congr 1
  funext u
  cases addressed u <;> rfl

/-- R162, R165: the falling edge of WRITE_DATA when it completes the byte. -/
theorem writeData_commit {s : State} (h : completesByte s = true) :
    exec (.writeData .falling) s =
      andThen (commitData { s with bf := true, dr := committedData s,
                                   nibPend := if s.fourBit then false else s.nibPend } (committedData s)) fun u =>
      match addressed u with
      | .ok v => .next (endState u v)
      | .error r => .fault r := by
  have hb : completesByte (s.setBusy true) = true := h
  show processed (writeFall true fun s => commitData s s.dr) s = _
  rw [processed_eq]
  unfold writeFall
  simp only
  rw [if_pos (by simpa [completesByte] using hb), latch_data_complete hb, committed_eq, andThen_assoc]
  congr 1
  funext u
  cases addressed u <;> rfl

/-- R164: the falling edge of a write that is the first half of a pair. -/
theorem write_firstHalf {s : State} (h : completesByte s = false) (dataSide : Bool) (commit : State → Res) :
    processed (writeFall dataSide commit) s =
      .next (((latch dataSide (s.setBusy true)).setBusy false).setGrids
        (grids ((latch dataSide (s.setBusy true)).setBusy false))) := by
  have hb : completesByte (s.setBusy true) = false := h
  rw [processed_eq]
  unfold writeFall
  simp only
  rw [if_neg (by simpa [completesByte] using hb)]
  rfl

/-- R167, R174: the falling edge of READ_DATA: committed, or after a first half rendered only. -/
theorem readData_fall (s : State) :
    exec (.readData .falling) s =
      if readDataCommits s.cfg.params.fourBitDataRead s then
        match addressed s with
        | .ok v => .next (endState s v)
        | .error r => .fault r
      else .next ((s.setBusy false).setGrids (grids (s.setBusy false))) := by
  show processed (readDataFall s.cfg.params.fourBitDataRead) s = _
  rw [processed_eq]
  have hc : readDataCommits s.cfg.params.fourBitDataRead (s.setBusy true) =
      readDataCommits s.cfg.params.fourBitDataRead s := by
    cases s.cfg.params.fourBitDataRead <;> rfl
  unfold readDataFall
  rw [hc]
  by_cases h : readDataCommits s.cfg.params.fourBitDataRead s = true
  · rw [if_pos h, if_pos h, committed_eq, andThen_next]
    have ha : addressed (s.setBusy true) = addressed s := rfl
    rw [ha]
    cases addressed s <;> rfl
  · rw [if_neg h, if_neg h]
    rfl

/-- R158: where a data read moves a whole byte it always commits, and its rising edge drives all of RB. -/
theorem readData_whole {s : State} (h : ¬ SplitRead s) :
    readDataCommits s.cfg.params.fourBitDataRead s = true ∧
      readDataRise s.cfg.params.fourBitDataRead s = { s with db := s.rb, ac := (advanceAC s (dirOf s.idFlag)).ac } := by
  unfold SplitRead at h
  cases hm : s.cfg.params.fourBitDataRead
  · exact ⟨rfl, rfl⟩
  · have hf : s.fourBit = false := by simpa [hm] using h
    exact ⟨by simp [readDataCommits, hf], by simp [readDataRise, hf, readDataWhole, advanceAC]⟩

/-- What a committing edge leaves follows from what the instruction leaves and the cell then addressed. -/
theorem commitLeaves_of {s : State} {b : Byte} {P : State → Prop}
    (h : ∃ u v, exec (decodeIR b) (commandState s) = .next u ∧ addressed u = .ok v ∧ P (endState u v)) :
    CommitLeaves s b P := by
  intro hc hb
  obtain ⟨u, v, hu, hv, hP⟩ := h
  subst hb
  exact ⟨_, by rw [writeInstruction_commit hc, hu, andThen_next]; simp only [hv], hP⟩

/-- What an instruction of IR leaves, said as an update of the state. -/
def commandEffect : Instr → State → State
  | .nopZero, s => s
  | .clearDisplay, s => { s with ddram := [], addrCg := false, ac := 0#7, shift := 0, idFlag := true }
  | .returnHome _, s => { s with addrCg := false, ac := 0#7, shift := 0 }
  | .entryModeSet i h, s => { s with idFlag := i, shFlag := h }
  | .displayControl d c b, s => { s with dispD := d, dispC := c, dispB := b }
  | .shift sc rl _, s =>
    if sc then { s with shift := shiftBy s.lw s.shift (screenStep rl), addrCg := false }
    else { s with ac := (advanceAC s (dirOf rl)).ac, addrCg := false }
  | .functionSet dl n f _, s =>
    { s with fourBit := !dl, twoLine := n, extFont := f && !n,
             ac := if s.addrCg then s.ac else normDD s.cfg.params.clampCmp n s.ac.toNat (loadDir s.cfg.params s.ac s.ac) }
  | .setCgramAddr a, s => { s with addrCg := true, ac := a.setWidth 7 }
  | .setDdramAddr a, s => 
    { s with addrCg := false, ac := normDD s.cfg.params.clampCmp s.twoLine a.toNat (loadDir s.cfg.params s.ac a) }
  | .writeInstruction _, s => s
  | .readBfAc _, s => s
  | .writeData _, s => s
  | .readData _, s => s

/-- Every instruction of IR goes on, to its effect. -/
theorem exec_command {i : Instr} (h : i.isCommand = true) (s : State) : exec i s = .next (commandEffect i s) := by
  cases i with
  | writeInstruction _ => cases h
  | readBfAc _ => cases h
  | writeData _ => cases h
  | readData _ => cases h
  | shift sc rl x =>
    show execShift sc rl x s = _
    cases sc <;> rfl
  | functionSet dl n f x =>
    show execFunctionSet dl n f x s = _
    unfold execFunctionSet renormDD commandEffect
    cases hc : s.addrCg <;> simp [hc, State.setFunction]
  | nopZero => rfl
  | clearDisplay => rfl
  | returnHome _ => rfl
  | entryModeSet _ _ => rfl
  | displayControl _ _ _ => rfl
  | setCgramAddr _ => rfl
  | setDdramAddr _ => rfl

/-- What the byte of IR does. -/
theorem exec_decodeIR (b : Byte) (s : State) : exec (decodeIR b) s = .next (commandEffect (decodeIR b) s) :=
  exec_command (decodeIR_isCommand b) s

/-- R165: unless it is a DDRAM cell off the map, the store goes to the addressed cell, and to no other field. -/
theorem storeData_ok {s : State} (h : s.addrCg = false → validDD s.ac.toNat s.twoLine = true) (v : Byte) : storeData s v = .next
    (if s.addrCg then { s with cgram := Memory.write (cgramUnlisted s.cfg) s.cgram (cgramIndex s.ac.toNat) v }
     else { s with ddram := Memory.write ddramUnlisted s.ddram (phys s.ac.toNat s.twoLine).toNat v }) := by
  unfold storeData
  by_cases hc : s.addrCg = true
  · rw [if_pos hc, if_pos hc]
    rfl
  · rw [if_neg hc, if_neg hc]
    simp [ddramWrite, (ddramIndex_of_valid (h (by simpa using hc))).1]

/-- What a data write with a valid AC leaves of the rest: AC one step on, SHIFT moved when SH is set. -/
def dataEffect (s : State) (v : Byte) : State :=
  { s with
    cgram := if s.addrCg then Memory.write (cgramUnlisted s.cfg) s.cgram (cgramIndex s.ac.toNat) v else s.cgram,
    ddram := if s.addrCg then s.ddram
      else Memory.write ddramUnlisted s.ddram (phys s.ac.toNat s.twoLine).toNat v,
    ac := (advanceAC s (dirOf s.idFlag)).ac,
    shift := if s.shFlag then shiftBy s.lw s.shift (writeStep s.idFlag) else s.shift }

theorem commitData_ok {s : State} (h : s.addrCg = false → validDD s.ac.toNat s.twoLine = true) (v : Byte) :
    commitData s v = .next (dataEffect s v) := by
  unfold commitData
  rw [storeData_ok h]
  by_cases hc : s.addrCg = true <;> by_cases hs : s.shFlag = true <;>
    simp [hs, hc, dataEffect, advanceAC, shiftDisplay, State.lw]

/-- AC stays valid through a data write. -/
theorem dataEffect_acValid (s : State) (v : Byte) : AcValid (dataEffect s v) :=
  (acValid_congr (s := advanceAC s (dirOf s.idFlag)) rfl rfl rfl).2 (advanceAC_acValid _ _)

/-- R301: a data write with DDRAM addressed at an invalid AC faults. -/
theorem commitData_of_invalid {s : State} (hc : s.addrCg = false) (h : validDD s.ac.toNat s.twoLine = false)
    (v : Byte) : commitData s v = .fault (.ddramAddress s.ac.toNat s.twoLine) := by
  simp [commitData, storeData, hc, ddramWrite, ddramIndex_of_invalid h, raiseFault]

end Laws
end Sys2Proof
end

