-- ==== Sys2Proof/Laws/Memory.lean ====
section
/-! SUPPORT. The laws of a memory: a read after a write, and the canonical form kept by every operation. -/

namespace Sys2Proof
namespace Laws

open Sys2Proof.Machine

variable {u : Nat → Byte}

theorem risingFrom_weaken {lo lo' : Nat} (h : lo' ≤ lo) : ∀ {m : Memory},
    Memory.risingFrom lo m = true → Memory.risingFrom lo' m = true
  | [], _ => rfl
  | (a, _) :: _, hm => by
    simp only [Memory.risingFrom, Bool.and_eq_true, decide_eq_true_eq] at hm ⊢
    exact ⟨by omega, hm.2⟩

/-- An address below the first one listed is not listed. -/
theorem read_below : ∀ {m : Memory} {lo a : Nat}, Memory.risingFrom lo m = true → a < lo →
    Memory.read u m a = u a
  | [], _, _, _, _ => rfl
  | (b, _) :: rest, lo, a, hm, ha => by
    simp only [Memory.risingFrom, Bool.and_eq_true, decide_eq_true_eq] at hm
    rw [Memory.read, if_neg (by omega)]
    exact read_below hm.2 (by omega)

theorem read_erase_same : ∀ {m : Memory} {lo a : Nat}, Memory.risingFrom lo m = true →
    Memory.read u (m.erase a) a = u a
  | [], _, _, _ => rfl
  | (b, _) :: rest, lo, a, hm => by
    simp only [Memory.risingFrom, Bool.and_eq_true, decide_eq_true_eq] at hm
    unfold Memory.erase
    split
    · exact read_below hm.2 (by omega)
    · rw [Memory.read, if_neg ‹_›]
      exact read_erase_same hm.2

theorem read_erase_other : ∀ (m : Memory) {a b : Nat}, b ≠ a →
    Memory.read u (m.erase a) b = Memory.read u m b
  | [], _, _, _ => rfl
  | (c, v) :: rest, a, b, h => by
    unfold Memory.erase
    split
    · rw [Memory.read, if_neg (by omega)]
    · simp only [Memory.read, read_erase_other rest h]

theorem read_insert_same : ∀ (m : Memory) (a : Nat) (v : Byte), Memory.read u (m.insert a v) a = v
  | [], _, _ => by simp [Memory.insert, Memory.read]
  | (b, w) :: rest, a, v => by
    unfold Memory.insert
    split
    · simp [Memory.read]
    · split
      · simp [Memory.read]
      · rw [Memory.read, if_neg (by omega)]
        exact read_insert_same rest a v

theorem read_insert_other : ∀ (m : Memory) {a b : Nat} (v : Byte), b ≠ a →
    Memory.read u (m.insert a v) b = Memory.read u m b
  | [], a, b, _, h => by simp [Memory.insert, Memory.read, h.symm]
  | (c, w) :: rest, a, b, v, h => by
    unfold Memory.insert
    split
    · rw [Memory.read, if_neg (by omega)]
    · split
      · subst_vars
        rw [Memory.read, if_neg (by omega), Memory.read, if_neg (by omega)]
      · simp only [Memory.read, read_insert_other rest v h]

/-- A read of the address written gives the byte written. -/
theorem read_write_same {m : Memory} (hm : Memory.risingFrom 0 m = true) (a : Nat) (v : Byte) :
    Memory.read u (m.write u a v) a = v := by
  unfold Memory.write
  split
  · rw [read_erase_same hm, ‹v = _›]
  · exact read_insert_same m a v

/-- A write leaves every other address alone. -/
theorem read_write_other (m : Memory) {a b : Nat} (v : Byte) (h : b ≠ a) :
    Memory.read u (m.write u a v) b = Memory.read u m b := by
  unfold Memory.write
  split
  · exact read_erase_other m h
  · exact read_insert_other m v h

theorem erase_risingFrom : ∀ {m : Memory} {lo a : Nat}, Memory.risingFrom lo m = true →
    Memory.risingFrom lo (m.erase a) = true
  | [], _, _, _ => rfl
  | (b, _) :: rest, lo, a, hm => by
    simp only [Memory.risingFrom, Bool.and_eq_true, decide_eq_true_eq] at hm
    unfold Memory.erase
    split
    · exact risingFrom_weaken (by omega) hm.2
    · simp only [Memory.risingFrom, Bool.and_eq_true, decide_eq_true_eq]
      exact ⟨hm.1, erase_risingFrom hm.2⟩

theorem insert_risingFrom : ∀ {m : Memory} {lo a : Nat} (v : Byte), Memory.risingFrom lo m = true → lo ≤ a →
    Memory.risingFrom lo (m.insert a v) = true
  | [], _, _, _, _, ha => by simpa [Memory.insert, Memory.risingFrom] using ha
  | (b, _) :: rest, lo, a, v, hm, ha => by
    simp only [Memory.risingFrom, Bool.and_eq_true, decide_eq_true_eq] at hm
    unfold Memory.insert
    split
    · simp only [Memory.risingFrom, Bool.and_eq_true, decide_eq_true_eq]
      exact ⟨ha, by omega, hm.2⟩
    · split
      · simp only [Memory.risingFrom, Bool.and_eq_true, decide_eq_true_eq]
        exact ⟨ha, by simpa [‹a = b›] using hm.2⟩
      · simp only [Memory.risingFrom, Bool.and_eq_true, decide_eq_true_eq]
        exact ⟨hm.1, insert_risingFrom v hm.2 (by omega)⟩

theorem mem_of_mem_erase : ∀ {m : Memory} {a : Nat} {c : Host.Cell}, c ∈ m.erase a → c ∈ m
  | [], _, _, h => h
  | (b, _) :: rest, a, c, h => by
    unfold Memory.erase at h
    split at h
    · exact List.mem_cons_of_mem _ h
    · rcases List.mem_cons.1 h with rfl | h
      · exact List.mem_cons_self
      · exact List.mem_cons_of_mem _ (mem_of_mem_erase h)

theorem mem_of_mem_insert : ∀ {m : Memory} {a : Nat} {v : Byte} {c : Host.Cell}, c ∈ m.insert a v →
    c = (a, v) ∨ c ∈ m
  | [], _, _, _, h => .inl (by simpa [Memory.insert] using h)
  | (b, w) :: rest, a, v, c, h => by
    unfold Memory.insert at h
    split at h
    · exact (List.mem_cons.1 h)
    · split at h
      · rcases List.mem_cons.1 h with rfl | h
        · exact .inl rfl
        · exact .inr (List.mem_cons_of_mem _ h)
      · rcases List.mem_cons.1 h with rfl | h
        · exact .inr List.mem_cons_self
        · exact (mem_of_mem_insert h).imp id (List.mem_cons_of_mem _)

theorem wf_iff {size : Nat} {m : Memory} : Memory.wf u size m = true ↔
    Memory.risingFrom 0 m = true ∧ ∀ c ∈ m, c.1 < size ∧ c.2 ≠ u c.1 := by
  simp [Memory.wf]

/-- Every write keeps the canonical form. -/
theorem write_wf {size : Nat} {m : Memory} {a : Nat} (v : Byte) (hm : Memory.wf u size m = true) (ha : a < size) :
    Memory.wf u size (m.write u a v) = true := by
  rw [wf_iff] at hm ⊢
  unfold Memory.write
  split
  · exact ⟨erase_risingFrom hm.1, fun c hc => hm.2 c (mem_of_mem_erase hc)⟩
  · refine ⟨insert_risingFrom v hm.1 (Nat.zero_le _), fun c hc => ?_⟩
    rcases mem_of_mem_insert hc with rfl | hc
    · exact ⟨ha, ‹_›⟩
    · exact hm.2 c hc

/-- The empty memory, as Reset and Clear Display leave it, is in canonical form. -/
theorem nil_wf (size : Nat) : Memory.wf u size [] = true := rfl

end Laws
end Sys2Proof
end

