-- ==== Sys2Proof/Laws/PerInstr.lean ====
section
/-! SUPPORT. What every instruction satisfies as syntax: its encoding matches its row of spec/opcode_table.json (the mask
and the match of 30_encoding.md R121 and R124 to R134), and its encoding is a byte of IR exactly when the instruction is
one of the nine that IR can hold (R120). -/

namespace Sys2Proof
namespace Laws
namespace MatchesTable

/-- Is the code a byte of IR. -/
def atIR : Code → Bool
  | .cycle _ _ _ => false
  | .ir _ => true

/-- The encoding agrees with the instruction's row and level. -/
def Statement (i : Instr) : Prop :=
  (encode i).bits &&& i.maskMatch.1 = i.maskMatch.2 ∧ atIR (encode i) = i.isCommand

theorem writeInstruction (edge : Edge) : Statement (.writeInstruction edge) := by
  cases edge <;> exact ⟨by decide, rfl⟩

theorem readBfAc (edge : Edge) : Statement (.readBfAc edge) := by
  cases edge <;> exact ⟨by decide, rfl⟩

theorem writeData (edge : Edge) : Statement (.writeData edge) := by
  cases edge <;> exact ⟨by decide, rfl⟩

theorem readData (edge : Edge) : Statement (.readData edge) := by
  cases edge <;> exact ⟨by decide, rfl⟩

theorem nopZero : Statement .nopZero := ⟨by decide, rfl⟩
theorem clearDisplay : Statement .clearDisplay := ⟨by decide, rfl⟩

theorem returnHome (x : BitVec 1) : Statement (.returnHome x) := by
  refine ⟨?_, rfl⟩
  revert x
  decide +kernel

theorem entryModeSet (incr shiftOnWrite : Bool) : Statement (.entryModeSet incr shiftOnWrite) := by
  cases incr <;> cases shiftOnWrite <;> exact ⟨by decide, rfl⟩

theorem displayControl (display cursor blinking : Bool) : Statement (.displayControl display cursor blinking) := by
  cases display <;> cases cursor <;> cases blinking <;> exact ⟨by decide, rfl⟩

theorem shift (screen right : Bool) (x : BitVec 2) : Statement (.shift screen right x) := by
  refine ⟨?_, rfl⟩
  revert screen right x
  decide +kernel

theorem functionSet (eightBit twoLines extended : Bool) (x : BitVec 2) :
    Statement (.functionSet eightBit twoLines extended x) := by
  refine ⟨?_, rfl⟩
  revert eightBit twoLines extended x
  decide +kernel

theorem setCgramAddr (a : BitVec 6) : Statement (.setCgramAddr a) := by
  refine ⟨?_, rfl⟩
  revert a
  decide +kernel

theorem setDdramAddr (a : BitVec 7) : Statement (.setDdramAddr a) := by
  refine ⟨?_, rfl⟩
  revert a
  decide +kernel

end MatchesTable
end Laws
end Sys2Proof
end

