-- ==== Sys2Proof/Laws/Step.lean ====
section
/-! SUPPORT. What an enable edge can do and what a step can do, said once, every guard included: proofs about all steps
case on `edge_cases` and `step_cases` and never unfold a cycle or a host operation. -/

namespace Sys2Proof
namespace Laws

open Sys2Proof.Machine Sys2Proof.Safety

/-- What a committed edge leaves of a commit's outcome (R162). -/
def finish (o : Res) : Res := andThen o fun u =>
  match addressed u with
  | .ok v => .next (endState u v)
  | .error r => .fault r

/-- The state in which a committed data write stores (R162 to R165). -/
def dataState (s : State) : State :=
  { s with bf := true, dr := committedData s, nibPend := if s.fourBit then false else s.nibPend }

theorem instruction_eq {s : State} (h : completesByte s = true) : exec (.writeInstruction .falling) s =
    finish (.next (commandEffect (decodeIR (committedByte s)) (commandState s))) :=
  (writeInstruction_commit h).trans (by rw [exec_decodeIR]; rfl)

theorem data_eq {s : State} (h : completesByte s = true)
    (ha : s.addrCg = false → validDD s.ac.toNat s.twoLine = true) :
    exec (.writeData .falling) s = finish (.next (dataEffect (dataState s) (committedData s))) :=
  (writeData_commit h).trans (by rw [← commitData_ok (s := dataState s) ha]; rfl)

theorem data_invalid {s : State} (h : completesByte s = true) (hc : s.addrCg = false)
    (ha : validDD s.ac.toNat s.twoLine = false) :
    exec (.writeData .falling) s = .fault (.ddramAddress s.ac.toNat s.twoLine) :=
  (writeData_commit h).trans (by rw [← andThen_fault]; congr 1; exact commitData_of_invalid (s := dataState s) hc ha _)

/-- Every outcome of the bus cycle that RS and RW select, at an edge (R157 to R168). -/
inductive EdgeDoes (s : State) : Bool → Bool → Edge → Res → Prop where
  | writeRise (rs : Bool) : EdgeDoes s rs false .rising (.next s)
  | busyRead (db : Byte) (ph : Bool) (h : s.fourBit = false → ph = s.rdPhase) :
      EdgeDoes s false true .rising (.next { s with db := db, rdPhase := ph })
  | busyFall : EdgeDoes s false true .falling (.next s)
  | dataRise (h : ¬ SplitRead s) : EdgeDoes s true true .rising
      (.next { s with db := s.rb, ac := (advanceAC s (dirOf s.idFlag)).ac })
  | firstHalfRise (h : SplitRead s) (hp : s.rdDataPhase = false) : EdgeDoes s true true .rising
      (.next { s with db := onHighLane (hiNibble s.rb), rdDataPhase := true })
  | secondHalfRise (h : SplitRead s) (hp : s.rdDataPhase = true) : EdgeDoes s true true .rising
      (.next { s with db := onHighLane (loNibble s.rb), rdDataPhase := false, ac := (advanceAC s (dirOf s.idFlag)).ac })
  | dataFall (h : SplitRead s → s.rdDataPhase = false) : EdgeDoes s true true .falling (finish (.next s))
  | firstHalfFall (h : SplitRead s) (hp : s.rdDataPhase = true) (t : State) (ht : t = { s with bf := false }) :
      EdgeDoes s true true .falling (.next (t.setGrids (grids t)))
  | firstHalf (rs : Bool) (h : completesByte s = false) (ir dr : Byte) (t : State)
      (ht : t = { s with ir := ir, dr := dr, nibPend := true, bf := false }) :
      EdgeDoes s rs false .falling (.next (t.setGrids (grids t)))
  | instruction (h : completesByte s = true) : EdgeDoes s false false .falling
      (finish (.next (commandEffect (decodeIR (committedByte s)) (commandState s))))
  | data (h : completesByte s = true) (ha : s.addrCg = false → validDD s.ac.toNat s.twoLine = true) :
      EdgeDoes s true false .falling (finish (.next (dataEffect (dataState s) (committedData s))))
  | dataOffTheMap (h : completesByte s = true) (hc : s.addrCg = false)
      (ha : validDD s.ac.toNat s.twoLine = false) :
      EdgeDoes s true false .falling (.fault (.ddramAddress s.ac.toNat s.twoLine))

theorem latch_firstHalf {s : State} (h : completesByte s = false) (dataSide : Bool) : ∃ ir dr,
    (latch dataSide (s.setBusy true)).setBusy false = { s with ir := ir, dr := dr, nibPend := true, bf := false } := by
  obtain ⟨hf, hn⟩ := not_completesByte h
  cases dataSide
  · exact ⟨nibbleInto false s.ir s.db, s.dr, by simp [latch, latch4, State.setBusy, hf, hn]⟩
  · exact ⟨s.ir, nibbleInto false s.dr s.db, by simp [latch, latch4, State.setBusy, hf, hn]⟩

theorem edge_cases (s : State) (rs rw : Bool) (edge : Edge) :
    EdgeDoes s rs rw edge (exec (decode (.cycle rs rw edge)) s) := by
  cases rw <;> cases edge
  · cases rs
    · exact .writeRise false
    · exact .writeRise true
  · cases hc : completesByte s
    · cases rs
      · obtain ⟨ir, dr, h⟩ := latch_firstHalf hc false
        have := EdgeDoes.firstHalf false hc ir dr _ h
        rwa [← write_firstHalf hc false fun s => executeIR s.ir s] at this
      · obtain ⟨ir, dr, h⟩ := latch_firstHalf hc true
        have := EdgeDoes.firstHalf true hc ir dr _ h
        rwa [← write_firstHalf hc true fun s => commitData s s.dr] at this
    · cases rs
      · exact instruction_eq hc ▸ EdgeDoes.instruction hc
      · by_cases ha : s.addrCg = false → validDD s.ac.toNat s.twoLine = true
        · exact data_eq hc ha ▸ EdgeDoes.data hc ha
        · simp only [Classical.not_imp, Bool.not_eq_true] at ha
          exact data_invalid hc ha.1 ha.2 ▸ EdgeDoes.dataOffTheMap hc ha.1 ha.2
  · cases rs
    · show EdgeDoes s false true .rising (.next (if s.fourBit then readBF4 s else readBF8 s))
      cases hf : s.fourBit
      · exact .busyRead _ s.rdPhase fun _ => rfl
      · simp only [if_true]
        unfold readBF4
        cases hp : s.rdPhase
        · exact .busyRead _ true (by simp [hf])
        · exact .busyRead _ false (by simp [hf])
    · show EdgeDoes s true true .rising (.next (readDataRise s.cfg.params.fourBitDataRead s))
      by_cases h : SplitRead s
      · obtain ⟨hf, hm⟩ := id h
        cases hp : s.rdDataPhase
        · have := EdgeDoes.firstHalfRise h hp
          simpa [readDataRise, hm, hf, readDataHalf, hp] using this
        · have := EdgeDoes.secondHalfRise h hp
          simpa [readDataRise, hm, hf, readDataHalf, hp, advanceAC] using this
      · rw [(readData_whole h).2]
        exact .dataRise h
  · cases rs
    · exact .busyFall
    · show EdgeDoes s true true .falling (exec (.readData .falling) s)
      rw [readData_fall]
      by_cases h : SplitRead s → s.rdDataPhase = false
      · have hc : readDataCommits s.cfg.params.fourBitDataRead s = true := by
          by_cases hs : SplitRead s
          · simp [readDataCommits, hs.1, hs.2, h hs]
          · exact (readData_whole hs).1
        rw [if_pos hc]
        exact .dataFall h
      · simp only [Classical.not_imp, Bool.not_eq_false] at h
        rw [if_neg (by simp [readDataCommits, h.1.1, h.1.2, h.2])]
        exact .firstHalfFall h.1 h.2 _ rfl

/-- A committed edge goes on to `endState`. -/
theorem finish_eq_next {u t : State} (h : finish (.next u) = .next t) : ∃ v, addressed u = .ok v ∧ t = endState u v := by
  simp only [finish, andThen_next] at h
  cases hv : addressed u with
  | ok v => exact ⟨v, rfl, by rw [hv] at h; exact (Host.Outcome.next.inj h).symm⟩
  | error r => rw [hv] at h; cases h

theorem finish_of_ok {u : State} {v : Byte} (h : addressed u = .ok v) : finish (.next u) = .next (endState u v) := by
  simp [finish, h]

/-- A committed edge that leaves a valid AC goes on. -/
theorem finish_goes {u : State} (h : AcValid u) : ∃ v, addressed u = .ok v ∧ finish (.next u) = .next (endState u v) := by
  obtain ⟨v, hv⟩ := addressed_of_valid h
  exact ⟨v, hv, finish_of_ok hv⟩

/-- A committed edge faults exactly when DDRAM is then addressed off the map. -/
theorem finish_eq_fault {u : State} {r : Fault} (h : finish (.next u) = .fault r) :
    u.addrCg = false ∧ validDD u.ac.toNat u.twoLine = false ∧ r = .ddramAddress u.ac.toNat u.twoLine := by
  simp only [finish, andThen_next] at h
  by_cases ha : u.addrCg = false → validDD u.ac.toNat u.twoLine = true
  · obtain ⟨v, hv⟩ := addressed_ok ha
    simp [hv] at h
  · simp only [Classical.not_imp, Bool.not_eq_true] at ha
    rw [addressed_of_invalid ha.1 ha.2] at h
    exact ⟨ha.1, ha.2, (Host.Outcome.fault.inj h).symm⟩

theorem finish_ne_refused (u : State) (r : Refusal) : finish (.next u) ≠ .refused r := by
  simp only [finish, andThen_next]
  cases addressed u <;> simp

/-- What Reset leaves before its render (R341). -/
def clearedState (s : State) : State := cgramRestore (ddramClear (resetRegisters s))

theorem resetBlock_eq (s : State) : resetBlock s = .next ((clearedState s).setGrids (grids (clearedState s))) :=
  render_eq _

/-- Every outcome of a step (R8, R150 to R156, R171, R172, R304, R311). -/
inductive StepDoes (s : State) : Res → Prop where
  | faulted (r : Fault) (h : s.fault = some r) : StepDoes s (.fault r)
  | waits (h : s.fault = none) (hi : s.inputs = []) : StepDoes s (.next s)
  | pins (h : s.fault = none) (rest : List AgentStep) (rs rw bl : Bool) (db : Byte)
      (hi : s.inputs.head? ≠ some (.host .reset)) (hp : ¬ s.inputs.head? = some .blinkToggle) :
      StepDoes s (.next { s with inputs := rest, rs := rs, rw := rw, bl := bl, db := db })
  | level (h : s.fault = none) (rest : List AgentStep) (b : Bool) (hi : s.inputs = .host (.setEnable b) :: rest)
      (hp : s.pwr = false ∨ s.e = b) : StepDoes s (.next { s with inputs := rest, e := b })
  | edge (h : s.fault = none) (rest : List AgentStep) (b : Bool) (hi : s.inputs = .host (.setEnable b) :: rest)
      (hp : s.pwr = true) (he : s.e = !b) :
      StepDoes s (exec (decode (.cycle s.rs s.rw (edgeTo b))) { s with inputs := rest, e := b })
  | samePower (h : s.fault = none) (rest : List AgentStep) (hi : s.inputs = .host (.setPower s.pwr) :: rest) :
      StepDoes s (.next { s with inputs := rest })
  | powerOn (h : s.fault = none) (rest : List AgentStep) (hi : s.inputs = .host (.setPower true) :: rest)
      (hp : s.pwr = false) : StepDoes s (resetBlock { s with inputs := rest, pwr := true })
  | renders (h : s.fault = none) (rest : List AgentStep) (p : Bool) (t : State)
      (ht : t = { s with inputs := rest, pwr := p })
      (hi : (s.inputs = .host .recompute :: rest ∧ p = s.pwr) ∨
        (s.inputs = .host (.setPower false) :: rest ∧ s.pwr = true ∧ p = false)) :
      StepDoes s (.next (t.setGrids (grids t)))
  | resets (h : s.fault = none) (rest : List AgentStep) (hi : s.inputs = .host .reset :: rest) :
      StepDoes s (resetBlock { s with inputs := rest })
  | blinks (h : s.fault = none) (rest : List AgentStep) (hi : s.inputs = .blinkToggle :: rest) :
      StepDoes s (.next { s with inputs := rest, blink := !s.blink })

/-- R304: a faulted state has no further step. -/
theorem step_faulted {s : State} {r : Fault} (h : s.fault = some r) : step s = .fault r := by
  simp [step, takeStep, h]

/-- With no coming action the block waits. -/
theorem step_empty {s : State} (h : s.fault = none) (hi : s.inputs = []) : step s = .next s := by
  simp [step, takeStep, h, hi]

/-- A step takes the first coming action. -/
theorem step_input {s : State} (h : s.fault = none) {ev : AgentStep} {rest : List AgentStep}
    (hi : s.inputs = ev :: rest) : step s = agentStep ev { s with inputs := rest } := by
  unfold step takeStep
  rw [h, hi]

theorem step_cases (s : State) : StepDoes s (step s) := by
  cases hf : s.fault with
  | some r => exact step_faulted hf ▸ .faulted r hf
  | none =>
    cases hi : s.inputs with
    | nil => exact step_empty hf hi ▸ .waits hf hi
    | cons ev rest =>
      rw [step_input hf hi]
      cases ev with
      | blinkToggle => exact .blinks hf rest hi
      | host op =>
        cases op with
        | setRS b => exact .pins hf rest b s.rw s.bl s.db (by simp [hi]) (by simp [hi])
        | setRW b => exact .pins hf rest s.rs b s.bl s.db (by simp [hi]) (by simp [hi])
        | setDB v => exact .pins hf rest s.rs s.rw s.bl v (by simp [hi]) (by simp [hi])
        | setBacklight b => exact .pins hf rest s.rs s.rw b s.db (by simp [hi]) (by simp [hi])
        | recompute =>
          show StepDoes s (render _)
          rw [render_eq]
          exact .renders hf rest s.pwr _ rfl (.inl ⟨hi, rfl⟩)
        | reset => exact .resets hf rest hi
        | setPower b =>
          show StepDoes s (setPower b { s with inputs := rest })
          unfold setPower
          by_cases hp : s.pwr = b
          · subst hp
            simp only [if_true]
            exact .samePower hf rest hi
          · rw [if_neg hp]
            cases b
            · simp only [Bool.false_eq_true, if_false, render_eq]
              exact .renders hf rest false _ rfl (.inr ⟨hi, by simpa using hp, rfl⟩)
            · simp only [if_true]
              exact .powerOn hf rest hi (by simpa using hp)
        | setEnable b =>
          show StepDoes s (setEnable b { s with inputs := rest })
          unfold setEnable
          by_cases hp : s.pwr = true
          · by_cases he : s.e = b
            · simp only [hp, Bool.not_true, Bool.false_eq_true, if_false, he, if_true]
              simpa only [hp] using StepDoes.level hf rest b hi (.inr he)
            · simp only [hp, Bool.not_true, Bool.false_eq_true, if_false, he]
              have := StepDoes.edge hf rest b hi hp (by cases b <;> simpa using he)
              simpa only [hp] using this
          · simp only [Bool.not_eq_true] at hp
            simp only [hp, Bool.not_false, if_true]
            simpa only [hp] using StepDoes.level hf rest b hi (.inl hp)

end Laws
end Sys2Proof
end

