-- ==== Sys2Proof/Tests/Slice0.lean ====
section
/-! SUPPORT. Tests and witnesses. The expected results are those of spec/95_test_vectors.md (its transcriptions T1 to T8,
its vectors V-DEC to V-RST and its programs P1 to P6) and of the examples in the rules. -/

namespace Sys2Proof
namespace Tests

open Sys2Proof.Machine Sys2Proof.Safety

/-! ### Small states -/

/-- What an outcome's next state says of itself. -/
def after {α : Type} (o : Res) (f : State → α) : Option α :=
  match o with
  | .next s => some (f s)
  | .fault _ => none
  | .refused _ => none

/-- The fault an outcome ends in. -/
def faultOf (o : Res) : Option Fault :=
  match o with
  | .next _ => none
  | .fault r => some r
  | .refused _ => none

/-- The powered block right after Reset (V-RST), one line. -/
def powered : State := { State.reset with pwr := true }

/-- The same in two-line mode. -/
def wide : State :=
  { powered with twoLine := true, grid0 := Grid.dark 5 40 ((List.range 40).map some),
                 grid1 := Grid.dark 5 40 ((List.range 40).map fun c => some (64 + c)) }

/-- The same in 4-bit mode. -/
def narrow : State := { powered with fourBit := true }

/-- CGRAM addressed. -/
def inCg (s : State) (a : Addr) : State := { s with addrCg := true, ac := a }

/-- E high and the byte on DB. -/
def bus (s : State) (rs rw : Bool) (v : Byte) : State := { s with rs := rs, rw := rw, db := v, e := true }

/-- The falling edge of an 8-bit WRITE_INSTRUCTION of the byte. -/
def ins (s : State) (v : Byte) : Res := exec (.writeInstruction .falling) (bus s false false v)

/-- The falling edge of an 8-bit WRITE_DATA of the byte. -/
def dat (s : State) (v : Byte) : Res := exec (.writeData .falling) (bus s true false v)

/-- A font of 5-dot patterns, default glyphs all zero: a concrete supply for the tests that read glyphs. -/
def testFont : Config.FontStore where
  glyphs8 := Vector.replicate 256 (Vector.replicate 16 0x15#8)
  glyphs11 := Vector.replicate 256 (Vector.replicate 16 0x15#8)
  cursor8 := Vector.replicate 11 0x1F#8
  cursor11 := Vector.replicate 11 0x1F#8
  blink8 := Vector.replicate 11 0x1F#8
  blink11 := Vector.replicate 11 0x1F#8

/-- The powered block with that supply. -/
def fonted : State := { State.constructed ⟨testFont, Vector.replicate 64 0x00#8, decided⟩ false with pwr := true }

/-- The same block with other values of two parameters of R10. -/
def withSplit (s : State) : State :=
  { s with cfg := { s.cfg with params := { s.cfg.params with fourBitDataRead := .split } } }
def withGe (s : State) : State := { s with cfg := { s.cfg with params := { s.cfg.params with clampCmp := .ge } } }

/-- Program P6 before its last edge: a Cursor/Display Shift about to be committed with CGRAM addressed at 45. -/
def aboutToFault : State := { bus (inCg wide 45) false false 0x14 with inputs := [.host (.setEnable false)] }

/-! ### Decoding: V-DEC, and the tables of 30_encoding.md R121 and R124 to R131 -/

theorem test_decode_cycles :
    decode (.cycle false false .falling) = .writeInstruction .falling ∧
    decode (.cycle true false .falling) = .writeData .falling ∧
    decode (.cycle false true .rising) = .readBfAc .rising ∧
    decode (.cycle true true .rising) = .readData .rising := by decide
theorem test_decode_nopZero : decodeIR 0b00000000#8 = .nopZero := by decide
theorem test_decode_clearDisplay : decodeIR 0b00000001#8 = .clearDisplay := by decide
theorem test_decode_returnHome : decodeIR 0b00000011#8 = .returnHome 1 := by decide
theorem test_decode_entryModeSet : decodeIR 0b00000110#8 = .entryModeSet true false := by decide
theorem test_decode_displayControl : decodeIR 0b00001001#8 = .displayControl false false true := by decide
theorem test_decode_shift : decodeIR 0b00010100#8 = .shift false true 0 := by decide
theorem test_decode_functionSet : decodeIR 0b00101000#8 = .functionSet false true false 0 := by decide
theorem test_decode_setCgramAddr : decodeIR 0b01111111#8 = .setCgramAddr 63 := by decide
theorem test_decode_setDdramAddr : decodeIR 0b11111111#8 = .setDdramAddr 127 := by decide

theorem test_decodeTableWord :
    decodeTableWord 2 0b01 = some (.readBfAc .rising) ∧ decodeTableWord 2 0b10 = some (.writeData .falling) ∧
    decodeTableWord 8 0x38 = some (.functionSet true true false 0) ∧ decodeTableWord 8 0x00 = some .nopZero := by decide

theorem test_decodeBytes : decodeBytes [0x58#8, 0x0E#8] = .ok (.setCgramAddr 24, [0x0E#8]) ∧
    decodeBytes [] = .error .noByte := by decide

/-! ### Well-formedness: one ill-formed term for each check -/

theorem test_busCycle_is_no_command : (Instr.readData .rising).isCommand = false ∧
    (Instr.functionSet true true false 0).isCommand = true := by decide

/-- A supply that fits both modes: 256 entries of 8 and of 11 rows (R94). -/
def goodSupply : Config.FontSupply where
  glyphs8 := List.replicate 256 (List.replicate 8 0x15#8)
  glyphs11 := List.replicate 256 (List.replicate 11 0x15#8)
  cursor8 := List.replicate 8 0x1F#8
  cursor11 := List.replicate 11 0x1F#8
  blink8 := List.replicate 8 0x1F#8
  blink11 := List.replicate 11 0x1F#8

theorem test_goodSupply : goodSupply.wellFormed = true := by decide +kernel
theorem test_shortGlyph8 :
    { goodSupply with glyphs8 := (List.replicate 255 (List.replicate 8 0#8)) ++ [List.replicate 7 0#8] }.wellFormed =
      false := by decide +kernel
theorem test_missingGlyph8 :
    { goodSupply with glyphs8 := List.replicate 255 (List.replicate 8 0#8) }.wellFormed = false := by decide +kernel
theorem test_shortGlyph11 :
    { goodSupply with glyphs11 := List.replicate 256 (List.replicate 10 0#8) }.wellFormed = false := by decide +kernel
theorem test_shortCursor8 : { goodSupply with cursor8 := List.replicate 7 0#8 }.wellFormed = false := by
  decide +kernel
theorem test_shortCursor11 : { goodSupply with cursor11 := List.replicate 10 0#8 }.wellFormed = false := by
  decide +kernel
theorem test_shortBlink8 : { goodSupply with blink8 := [] }.wellFormed = false := by decide +kernel
theorem test_shortBlink11 : { goodSupply with blink11 := List.replicate 10 0#8 }.wellFormed = false := by
  decide +kernel

/-- R302: an ill-formed supply is refused at construction, with the rows that it supplies. -/
theorem test_construct_refuses :
    faultOf (construct { goodSupply with cursor11 := List.replicate 10 0#8 } (Vector.replicate 64 0#8) decided false) =
      some (.fontStoreShape true 10) := by decide +kernel

/-- Log 17: a supply short in both modes is reported for the 8-row mode. -/
theorem test_construct_reports_8_first :
    faultOf (construct { goodSupply with cursor11 := [], blink8 := List.replicate 7 0#8 } (Vector.replicate 64 0#8) decided
      false) = some (.fontStoreShape false 7) := by decide +kernel
/-- Log 17: surplus entries and rows are accepted. -/
theorem test_surplus_accepted :
    { goodSupply with glyphs8 := List.replicate 257 (List.replicate 17 0#8) }.wellFormed = true := by decide +kernel
/-- R10: GW is in 1..8. -/
theorem test_glyph_width_range : decided.wellFormed = true ∧ { decided with glyphWidth := 0 }.wellFormed = false ∧
    { decided with glyphWidth := 9 }.wellFormed = false := by decide +kernel

/-! ### The decided parameters: 00_scope.md R10, 20_memory.md R91, 42_address_counter.md R232 -/

theorem test_loadDir : loadDir decided 0 50 = .inc ∧ loadDir decided 70 50 = .dec ∧ loadDir decided 50 50 = .dec ∧
    loadDir decided 126 127 = .inc ∧ loadDir decided 127 0 = .dec := by decide +kernel
theorem test_extCgBase : [0#8, 1, 2, 3, 4, 5].map (extCgBase decided) = [0, 0, 22, 22, 44, 44] := by decide +kernel

/-! ### The address arithmetic and the accessors: V-AC, V-SHIFT, V-FLT -/

theorem test_normDD_two :
    [(104, Dir.inc), (-1, .dec), (127, .inc), (128, .inc), (103, .inc), (40, .inc), (63, .dec), (50, .dec)].map
      (fun p => (normDD .gt true p.1 p.2).toNat) = [0, 103, 103, 0, 103, 64, 39, 39] := by decide
theorem test_normDD_one :
    [(80, Dir.inc), (-1, .dec), (79, .inc), (126, .inc), (40, .inc), (63, .dec)].map
      (fun p => (normDD .gt false p.1 p.2).toNat) = [0, 79, 79, 0, 40, 63] := by decide
theorem test_normDD_ge : (normDD .ge true 103 .inc).toNat = 0 ∧ (normDD .ge true (-1) .dec).toNat = 103 := by decide
theorem test_shiftBy :
    [(39, 1), (-39, -1), (38, 1), (0, -1), (50, 1)].map (fun p => shiftBy 40 p.1 p.2) = [0, 0, 39, -1, 51] := by decide
theorem test_ddramRead_faults :
    ddramRead wide 50 = .error (.ddramAddress 50 true) ∧ ddramRead wide 104 = .error (.ddramAddress 104 true) ∧
    ddramRead powered 80 = .error (.ddramAddress 80 false) ∧ ddramRead powered (-1) = .error (.ddramAddress (-1) false)
    := by decide
theorem test_ddramRead_second_line :
    ddramRead { wide with ddram := [(40, 0x5A#8), (79, 0x5B#8)] } 64 = .ok 0x5A#8 ∧
    ddramRead { wide with ddram := [(40, 0x5A#8), (79, 0x5B#8)] } 103 = .ok 0x5B#8 := by decide

/-! ### Bus cycles: V-BUS -/

theorem test_writeInstruction_first_half :
    after (ins { narrow with ir := 0xA7 } 0x10) (fun t => (t.ir, t.nibPend, t.ac)) = some (0x17, true, 0) := by decide
theorem test_writeInstruction_second_half :
    after (ins { narrow with ir := 0x20, nibPend := true } 0x8F) (fun t => (t.ir, t.nibPend, t.twoLine, t.bf)) =
      some (0x28, false, true, false) := by decide
theorem test_writeData_gap :
    after (dat { wide with ac := 39 } 0x41) (fun t => (t.ddram, t.ac, t.rb)) = some ([(39, 0x41)], 64, 0x20) := by
  decide
theorem test_writeData_shifts :
    after (dat { wide with ac := 5, idFlag := false, shFlag := true, shift := 39 } 0x41)
      (fun t => (t.ddram, t.ac, t.shift)) = some ([(5, 0x41)], 4, 0) := by decide
theorem test_writeData_cgram :
    after (dat (inCg fonted 63) 0x1F) (fun t => (t.cgram, t.ac, t.ddram)) = some ([(63, 0x1F)], 0, []) := by decide
theorem test_readBfAc_whole :
    after (exec (.readBfAc .rising) { wide with ac := 0x45 }) (·.db) = some 0x45 := by decide
theorem test_readBfAc_halves :
    after (andThen (exec (.readBfAc .rising) { narrow with ac := 0x45 }) (exec (.readBfAc .rising)))
      (fun t => (t.db, t.rdPhase)) = some (0x50, false) ∧
    after (exec (.readBfAc .rising) { narrow with ac := 0x45 }) (fun t => (t.db, t.rdPhase)) = some (0x40, true) := by
  decide
theorem test_readData_rise :
    after (exec (.readData .rising) { powered with ac := 5, rb := 0x41 }) (fun t => (t.db, t.ac)) = some (0x41, 6) ∧
    after (exec (.readData .rising) { powered with ac := 5, rb := 0x41, idFlag := false }) (fun t => (t.db, t.ac)) =
      some (0x41, 4) := by decide
theorem test_readData_fall :
    after (exec (.readData .falling) { powered with ac := 6, ddram := [(6, 0x42#8)] }) (fun t => (t.rb, t.ac)) =
      some (0x42, 6) := by decide

/-- R174: the first read of a pair drives RB[7:4] and leaves AC, the second drives RB[3:0] and advances AC. -/
theorem test_readData_split :
    after (exec (.readData .rising) { withSplit narrow with ac := 5, rb := 0x41 }) (fun t => (t.db, t.ac, t.rdDataPhase)) =
      some (0x40, 5, true) ∧
    after (exec (.readData .rising) { withSplit narrow with ac := 5, rb := 0x41, rdDataPhase := true })
      (fun t => (t.db, t.ac, t.rdDataPhase)) = some (0x10, 6, false) := by decide
/-- R236: with GE an increment from TOP - 1 gives 0. -/
theorem test_advance_ge : (advanceAC { withGe wide with ac := 102 } .inc).ac = 0 ∧
    (advanceAC { wide with ac := 102 } .inc).ac = 103 := by decide

/-! ### Instructions: V-INS -/

theorem test_nopZero :
    after (ins { powered with ac := 5, ddram := [(5, 0x41#8)] } 0x00) (fun t => (t.ac, t.rb)) = some (5, 0x41) := by
  decide
theorem test_clearDisplay :
    after (ins { inCg wide 30 with shift := 3, idFlag := false, shFlag := true, ddram := [(17, 0x41#8)] } 0x01)
      (fun t => ((t.ddram, t.ac, t.shift, t.rb), t.idFlag, t.shFlag, t.addrCg)) =
      some (([], 0, 0, 0x20), true, true, false) := by decide
theorem test_returnHome :
    after (ins { wide with ac := 70, shift := -5, ddram := [(0, 0x41#8)] } 0x03)
      (fun t => (t.ac, t.shift, t.rb, t.ddram)) = some (0, 0, 0x41, [(0, 0x41)]) := by decide
theorem test_entryModeSet :
    after (ins powered 0x05) (fun t => (t.idFlag, t.shFlag)) = some (false, true) ∧
    after (ins powered 0x06) (fun t => (t.idFlag, t.shFlag)) = some (true, false) := by decide
theorem test_displayControl :
    after (ins powered 0x0C) (fun t => (t.dispD, t.dispC, t.dispB)) = some (true, false, false) ∧
    after (ins powered 0x0B) (fun t => (t.dispD, t.dispC, t.dispB)) = some (false, true, true) := by decide
theorem test_shift_cursor :
    after (ins { wide with ac := 64 } 0x10) (·.ac) = some 39 ∧
    after (ins (inCg powered 45) 0x14) (fun t => (t.ac, t.addrCg, t.rb)) = some (46, false, 0x20) := by decide
theorem test_shift_display :
    after (ins { wide with shift := 39 } 0x1C) (·.shift) = some 0 ∧
    after (ins (inCg wide 20) 0x18) (fun t => (t.shift, t.ac, t.addrCg)) = some (-1, 20, false) := by decide
theorem test_functionSet :
    after (ins { powered with ac := 50 } 0x3C) (fun t => (t.fourBit, t.twoLine, t.extFont, t.ac)) =
      some (false, true, false, 39) ∧
    after (ins { wide with ac := 100 } 0x24) (fun t => (t.fourBit, t.twoLine, t.extFont, t.ac)) =
      some (true, false, true, 0) := by decide
theorem test_setCgramAddr :
    after (ins { fonted with cgram := [(24, 0x0E#8)] } 0x58) (fun t => (t.addrCg, t.ac, t.rb)) = some (true, 24, 0x0E) := by
  decide
theorem test_setDdramAddr :
    [(0, 0xB2#8), (70, 0xB2#8), (0, 0xC0#8), (0, 0xFF#8), (0, 0xE8#8)].map
      (fun p => after (ins { wide with ac := p.1 } p.2) (·.ac)) =
      [some 64, some 39, some 64, some 103, some 0] := by decide

/-! ### Steps, reset, faults: V-RST, P6 -/

theorem test_fetch_functionSet : after (step (State.reset.withFetchWord 8 0x38)) (·.twoLine) = some true := by decide
theorem test_fetch_readData : after (step ({ powered with rb := 0x41 }.withFetchWord 2 0b11)) (·.db) = some 0x41 := by
  decide
theorem test_step_waits : after (step State.reset) (·.inputs) = some [] := by decide
theorem test_P6 : faultOf (step aboutToFault) = some (.ddramAddress 46 true) := by decide
theorem test_powerOn :
    after (hostOp (.setPower true) { wide with pwr := false, ac := 9, ddram := [(3, 0x41#8)], idFlag := false })
      (fun t => ((t.ddram, t.ac, t.rb), t.pwr, t.idFlag, t.twoLine)) = some (([], 0, 0), true, true, false) := by decide
theorem test_unpowered_edge : after (hostOp (.setEnable true) State.reset) (fun t => (t.e, t.db)) = some (true, 0) := by
  decide

/-- R138: the expansion of INS4 0x28 (P3, line 3), loaded as the coming actions. -/
theorem test_write4_loads : (State.reset.load (write4 false 0x28)).inputs =
    [.host (.setRS false), .host (.setRW false), .host (.setDB 0x20), .host (.setEnable true), .host (.setEnable false),
      .host (.setDB 0x80), .host (.setEnable true), .host (.setEnable false)] := by decide
/-- R173: what the host reads after a busy-flag read's rising edge (V-BUS). -/
theorem test_observe :
    after (exec (.readBfAc .rising) (inCg { powered with rw := true } 0x3F))
      (fun t => ((observe t).db, (observe t).ac, (observe t).bf)) = some (0x3F, 0x3F, false) := by decide

/-! ### Rendering: V-REN, P5 -/

theorem test_shifted_columns :
    [0, 1, 39].map (shiftedColumn { wide with shift := 1 } 40) = [39, 0, 38] ∧
    [0, 1, 39].map (shiftedColumn { wide with shift := -1 } 40) = [1, 2, 0] ∧
    [0, 1, 39].map (shiftedColumn { wide with shift := 50 } 40) = [30, 31, 29] ∧
    [0, 1, 79].map (shiftedColumn { powered with shift := 5 } 80) = [75, 76, 74] := by decide
theorem test_rowDots :
    rowDots 5 0b10001 = [true, false, false, false, true] ∧ rowDots 5 0b11110001 = [true, false, false, false, true] ∧
    rowDots 5 0b11100000 = [false, false, false, false, false] := by decide
theorem test_glyphRow :
    glyphRow { fonted with cgram := [(58, 0x11#8)] } 7 2 = 0x11 ∧ glyphRow fonted 8 0 = 0x15 ∧
    glyphRow { fonted with extFont := true, cgram := [(32, 0x11#8)] } 3 10 = 0x11 ∧
    glyphRow { fonted with extFont := true } 6 0 = 0x15 := by decide
/-- P5: rows 0 and 4 of the glyph on grid 0, row 8 on row 0 of grid 1, row 3 of grid 1 off. -/
theorem test_P5 :
    after (render { fonted with extFont := true, dispD := true, ac := 1, ddram := [(0, 0x00#8)],
                                cgram := [(0, 0x01#8), (4, 0x10#8), (8, 0x01#8)] })
      (fun t => ([0, 1, 2, 3, 4].map (t.grid0.dot? 0), t.grid0.dot? 4 0, t.grid1.dot? 0 4, t.grid1.dot? 3 4,
        t.grid1.source 7)) =
      some ([some false, some false, some false, some false, some true], some true, some true, some false, some 7) := by
  decide +kernel
/-- V-REN: the cursor overlay on the second line, and none on the cell beside it. -/
theorem test_cursor_second_line :
    after (render { fonted with twoLine := true, dispC := true, ac := 66 })
      (fun t => (t.grid1.dot? 0 11, t.grid1.dot? 0 16, t.grid0.dot? 0 11)) =
      some (some true, some false, some false) := by decide +kernel

/-- V-REN: the blink overlay follows the sampled BLINK. -/
theorem test_overlays :
    overlayRow { fonted with dispB := true, blink := true } 0 = 0x1F ∧
    overlayRow { fonted with dispB := true, blink := false } 0 = 0x00 ∧
    overlayRow { fonted with dispC := true } 7 = 0x1F ∧
    (cursorHere { fonted with ac := 3 } 3 = true ∧ cursorHere { fonted with ac := 3 } 4 = false ∧
      cursorHere (inCg fonted 3) 3 = false) := by decide

/-! ### Witnesses: for each statement with hypotheses, states and operands that meet them all -/

theorem goesOn {o : Res} (h : after o (fun _ => ()) = some ()) : ∃ t, o = .next t := by
  cases o with
  | next t => exact ⟨t, rfl⟩
  | fault r => cases h
  | refused r => cases h

theorem dark_fits (gw w : Nat) (src : List (Option Nat)) (h : src.length = w) : GridFits gw w (Grid.dark gw w src) where
  rows := List.length_replicate
  dots := fun row hr => by rw [List.eq_of_mem_replicate hr, List.length_replicate]
  src := h

theorem inv_powered : Inv powered :=
  ⟨rfl, rfl, by decide, by decide, (rfl : validDD 0 false = true), rfl, rfl, dark_fits 5 80 _ (by decide),
    dark_fits 5 80 _ (by decide), by decide⟩

theorem inv_wide : Inv wide :=
  ⟨rfl, rfl, by decide, by decide, (rfl : validDD 0 true = true), rfl, rfl, dark_fits 5 40 _ (by decide),
    dark_fits 5 40 _ (by decide), by decide⟩

theorem inv_aboutToFault : Inv aboutToFault :=
  ⟨rfl, rfl, by decide, by decide, (by decide : (45 : Nat) < 64), rfl, rfl, dark_fits 5 40 _ (by decide),
    dark_fits 5 40 _ (by decide), by decide⟩

theorem witness_HighestSetBitIsTheOpcode :
    (0x01#8).getLsbD 0 = true ∧ (∀ j, 0 < j → (0x01#8).getLsbD j = false) ∧
    (0xFF#8).getLsbD 7 = true ∧ (∀ j, 7 < j → (0xFF#8).getLsbD j = false) := by
  refine ⟨by decide, fun j hj => ?_, by decide, fun j hj => BitVec.getLsbD_of_ge _ _ hj⟩
  by_cases h : j < 8
  · interval_cases j <;> decide
  · exact BitVec.getLsbD_of_ge _ _ (by omega)

theorem witness_DontCareBitsAreIgnored :
    (0x02#8 &&& 0xFE#8 = 0x02#8 ∧ 0x01#8 &&& 0xFE#8 = 0#8) ∧ (0x1C#8 &&& 0xF0#8 = 0x10#8 ∧ 0x03#8 &&& 0xFC#8 = 0#8) ∧
    (0x3F#8 &&& 0xE0#8 = 0x20#8 ∧ 0x03#8 &&& 0xFC#8 = 0#8) := by decide

theorem witness_EdgeRunsTheSelectedCycle :
    (∀ b : Bool, ∃ s : State, s.fault = none ∧ s.inputs = [.host (.setEnable b)] ∧ s.pwr = true ∧ s.e = !b) :=
  fun b => ⟨{ powered with e := !b, inputs := [.host (.setEnable b)] }, rfl, rfl, rfl, rfl⟩

theorem witness_CommitRunsTheDecodedInstruction :
    completesByte powered = true ∧ completesByte { narrow with nibPend := true } = true := by decide

theorem witness_LevelPinsWriteOnlyThemselves :
    State.reset.fault = none ∧ { State.reset with inputs := [.host (.setRS true)] }.inputs = [.host (.setRS true)] ∧
    { State.reset with inputs := [.host (.setEnable true)] }.pwr = false ∧
    { powered with inputs := [.host (.setEnable false)] }.e = false := by decide

theorem witness_BlinkToggleWritesOnlyBlink :
    { powered with inputs := [.blinkToggle] }.fault = none ∧
    { powered with inputs := [.blinkToggle] }.inputs = [.blinkToggle] := by decide

theorem witness_FaultIsFinal : ∃ s r, step s = .fault r := by
  refine ⟨aboutToFault, .ddramAddress 46 true, ?_⟩
  have h := test_P6
  cases hs : step aboutToFault <;> rw [hs] at h <;> cases h
  rfl

theorem witness_PowerTransitions : State.reset.pwr = false ∧ powered.pwr = true := by decide

theorem witness_DdramReadFaultsOffTheMap :
    (wide.twoLine = true ∧ (64 : Int) ≤ 64 ∧ (103 : Int) ≤ 103) ∧ ((0 : Int) ≤ 39 ∧ (39 : Int) ≤ 39) ∧
    (powered.twoLine = false ∧ (79 : Int) ≤ 79) ∧ ((-1 : Int) < 0) ∧ ((40 : Int) ≤ 40 ∧ (63 : Int) ≤ 63) ∧
    ((104 : Int) ≤ 104) ∧ ((80 : Int) ≤ 80) := by decide

theorem witness_DdramWriteIsReadBack : Memory.wf ddramUnlisted ddramSize wide.ddram = true ∧
    validDD 103 wide.twoLine = true ∧ validDD 64 wide.twoLine = true ∧ validDD 40 wide.twoLine = false ∧
    validDD (-1) wide.twoLine = false := by decide

theorem witness_LineModesAliasTheSameCells : (0 : Nat) < 40 ∧ (39 : Nat) < 40 := by decide

theorem witness_NormDDByCases :
    ((127 : Nat) : Int) = (-1) % 128 ∧ (((104 : Nat) : Int) = 104 % 128 ∧ topAddr true < 104) ∧
    (((80 : Nat) : Int) = 80 % 128 ∧ topAddr false < 80) ∧ ((40 : Nat) : Int) = 40 % 128 ∧
    ((63 : Nat) : Int) = 63 % 128 ∧ (((103 : Nat) : Int) = 103 % 128 ∧ 103 ≤ topAddr true) ∧
    (((0 : Nat) : Int) = 128 % 128 ∧ 0 ≤ topAddr true) := by decide

theorem witness_ClampReadingsDifferAtTopAlone : ((103 : Int) % 128 = topAddr true ∧ (79 : Int) % 128 = topAddr false) ∧
    ((104 : Int) % 128 ≠ topAddr true ∧ (-1 : Int) % 128 ≠ topAddr true) := by decide

theorem witness_AdvanceStepsToTheNeighbour : (inCg wide 63).addrCg = true ∧
    (wide.addrCg = false ∧ [0, 39, 64, 103].all (fun a => validDD a wide.twoLine) = true) ∧
    [0, 79].all (fun a => validDD a powered.twoLine) = true := by decide

theorem witness_ShiftWrapsAtTheLineWidth :
    { wide with shift := 39 }.shift + 1 = ({ wide with shift := 39 }.lw : Int) ∧
    { wide with shift := -39 }.shift + -1 = -({ wide with shift := -39 }.lw : Int) ∧
    ({ wide with shift := 38 }.shift + 1 ≠ ({ wide with shift := 38 }.lw : Int) ∧
      { wide with shift := 38 }.shift.natAbs < { wide with shift := 38 }.lw) := by decide

theorem witness_NopZeroChangesNothing : AcValid powered ∧ completesByte (bus powered false false 0x00) = true ∧
    committedByte (bus powered false false 0x00) = 0x00#8 := ⟨(rfl : validDD 0 false = true), by decide⟩

theorem witness_ClearDisplayBlanksAndGoesHome : completesByte (bus wide false false 0x01) = true ∧
    committedByte (bus wide false false 0x01) = 0x01#8 := by decide

theorem witness_ReturnHomeIsIdempotent :
    (completesByte (bus wide false false 0x02) = true ∧ committedByte (bus wide false false 0x02) = 0x02#8) ∧
    (completesByte { bus narrow false false 0x30 with ir := 0x00, nibPend := true } = true ∧
      committedByte { bus narrow false false 0x30 with ir := 0x00, nibPend := true } = 0x03#8) := by decide

theorem witness_EntryModeSetWritesItsTwoFlags : 0x07#8 &&& 0xFC#8 = 0x04#8 ∧ AcValid powered ∧
    completesByte (bus powered false false 0x07) = true ∧ committedByte (bus powered false false 0x07) = 0x07#8 :=
  ⟨by decide, (rfl : validDD 0 false = true), by decide⟩

theorem witness_DisplayControlWritesItsThreeFlags : 0x0F#8 &&& 0xF8#8 = 0x08#8 ∧ AcValid powered ∧
    completesByte (bus powered false false 0x0F) = true ∧ committedByte (bus powered false false 0x0F) = 0x0F#8 :=
  ⟨by decide, (rfl : validDD 0 false = true), by decide⟩

theorem witness_ShiftMovesDisplayOrCursor : (inCg wide 45).addrCg = true ∧ wide.addrCg = false ∧
    validDD wide.ac.toNat wide.twoLine = true ∧
    validDD { wide with ac := 103 }.ac.toNat { wide with ac := 103 }.twoLine = true := by decide

theorem witness_FunctionSetRenormalizes : (inCg powered 45).addrCg = true ∧ powered.addrCg = false ∧
    (validDD { powered with ac := 79 }.ac.toNat true = true ∧ powered.cfg.params.clampCmp = .gt) ∧
    ((withGe wide).cfg.params.clampCmp = .ge ∧ { wide with ac := 79 }.ac.toNat = topAddr false) ∧
    (40 ≤ { powered with ac := 40 }.ac.toNat ∧ { powered with ac := 63 }.ac.toNat ≤ 63) ∧
    { powered with ac := 127 }.ac.toNat = 127 ∧
    ({ wide with ac := 80 }.ac.toNat ≠ 127 ∧ topAddr false < { wide with ac := 80 }.ac.toNat) ∧
    (decodeIR 0x3F#8 = .functionSet true true true 3 ∧ completesByte (bus powered false false 0x3F) = true ∧
      committedByte (bus powered false false 0x3F) = 0x3F#8) := by decide

theorem witness_SetCgramAddrLoadsSixBits :
    (0x40 ≤ (0x40#8).toNat ∧ (0x40#8).toNat ≤ 0x7F ∧ (0x40#8).toNat % 64 = (0#6).toNat) ∧
    (0x40 ≤ (0x7F#8).toNat ∧ (0x7F#8).toNat ≤ 0x7F ∧ (0x7F#8).toNat % 64 = (63#6).toNat) ∧
    completesByte (bus wide false false 0x7F) = true ∧ committedByte (bus wide false false 0x7F) = 0x7F#8 := by decide

theorem witness_SetDdramAddrNormalizesTheLoad :
    (validDD (103#7).toNat wide.twoLine = true ∧ wide.cfg.params.clampCmp = .gt) ∧
    ((withGe wide).cfg.params.clampCmp = .ge ∧ (103#7).toNat = (withGe wide).top) ∧ (127#7).toNat = 127 ∧
    ((104#7).toNat ≠ 127 ∧ wide.top < (104#7).toNat) ∧
    (wide.twoLine = true ∧ 40 ≤ (40#7).toNat ∧ (63#7).toNat ≤ 63) ∧
    (0x80 ≤ (0xFF#8).toNat ∧ (0xFF#8).toNat % 128 = (127#7).toNat ∧ completesByte (bus wide false false 0xFF) = true ∧
      committedByte (bus wide false false 0xFF) = 0xFF#8) := by decide

theorem witness_InstructionsLeaveTheFrame : decodeIR 0x02#8 ≠ .clearDisplay := by decide

theorem witness_CommittedEdgeFollowsTheAcItLeaves :
    (∃ s u, completesByte s = true ∧ exec (decodeIR (committedByte s)) (commandState s) = .next u ∧ AcValid u) ∧
    (∃ s u, completesByte s = true ∧ exec (decodeIR (committedByte s)) (commandState s) = .next u ∧
      u.addrCg = false ∧ validDD u.ac.toNat u.twoLine = false) :=
  ⟨⟨bus powered false false 0x06, _, by decide, Laws.exec_decodeIR _ _, (rfl : validDD 0 false = true)⟩,
    aboutToFault, _, by decide, Laws.exec_decodeIR _ _, by decide, by decide⟩

theorem witness_FirstHalfOnlyLatches : narrow.fourBit = true ∧ narrow.nibPend = false := by decide

theorem witness_WriteDataStoresAtAc : completesByte (bus wide true false 0x41) = true ∧ AcValid wide ∧
    AcValid (inCg wide 63) ∧ wide.addrCg = false ∧ (inCg wide 63).addrCg = true ∧
    Memory.wf ddramUnlisted ddramSize wide.ddram = true ∧
    Memory.wf (cgramUnlisted wide.cfg) cgramSize wide.cgram = true :=
  ⟨by decide, (rfl : validDD 0 true = true), (by decide : (63 : Nat) < 64), by decide, by decide, rfl, rfl⟩

theorem witness_BusyFlagReadGivesAc : powered.fourBit = false ∧ (narrow.fourBit = true ∧ narrow.rdPhase = false) ∧
    { narrow with rdPhase := true }.rdPhase = true := by decide

theorem witness_ReadDataDrivesTheBuffer : ¬ SplitRead narrow ∧ ¬ SplitRead (withSplit wide) ∧ AcValid wide ∧
    AcValid (inCg wide 63) :=
  ⟨by unfold SplitRead; decide, by unfold SplitRead; decide, (rfl : validDD 0 true = true),
    (by decide : (63 : Nat) < 64)⟩

theorem witness_SplitDataReadTakesTwoCycles : SplitRead (withSplit narrow) ∧ (withSplit narrow).rdDataPhase = false :=
  ⟨⟨rfl, rfl⟩, rfl⟩

theorem witness_NibblePairEqualsWholeByte : ∃ t, (bus narrow true false 0x4F).fourBit = true ∧
    (bus narrow true false 0x4F).nibPend = false ∧ hiNibble (bus narrow true false 0x4F).db = hiNibble 0x41#8 ∧
    hiNibble 0x1A#8 = loNibble 0x41#8 ∧ exec (.writeData .falling) (bus narrow true false 0x4F) = .next t := by
  obtain ⟨t, ht⟩ := goesOn (o := exec (.writeData .falling) (bus narrow true false 0x4F)) (by decide)
  exact ⟨t, by decide, by decide, by decide, by decide, ht⟩

theorem witness_ReadAfterWriteIsStale :
    (completesByte (bus wide true false 0x41) = true ∧
      ∃ t, exec (.writeData .falling) (bus wide true false 0x41) = .next t ∧ ¬ SplitRead t) ∧
    (completesByte (bus { withSplit narrow with nibPend := true } true false 0x41) = true ∧
      ∃ t, exec (.writeData .falling) (bus { withSplit narrow with nibPend := true } true false 0x41) = .next t ∧
        SplitRead t) := by
  refine ⟨⟨by decide, ?_⟩, by decide, ?_⟩
  · obtain ⟨v, -, h⟩ := Laws.finish_goes (Laws.dataEffect_acValid (Laws.dataState (bus wide true false 0x41)) 0x41)
    exact ⟨_, (Laws.data_eq (by decide) (by decide)).trans h, fun hs => Bool.false_ne_true hs.1⟩
  · obtain ⟨v, -, h⟩ := Laws.finish_goes (Laws.dataEffect_acValid
      (Laws.dataState (bus { withSplit narrow with nibPend := true } true false 0x41)) 0x04)
    exact ⟨_, (Laws.data_eq (by decide) (by decide)).trans h, rfl, rfl⟩

theorem witness_ReaddressedCellReadsBack :
    (wide.fourBit = false ∧ AcValid { wide with ac := 103 } ∧ AcValid (inCg wide 63)) ∧
    Memory.wf ddramUnlisted ddramSize wide.ddram = true ∧
    Memory.wf (cgramUnlisted wide.cfg) cgramSize wide.cgram = true ∧
    ((inCg wide 63).addrCg = true ∧ wide.cfg.params.clampCmp = .gt ∧ (withGe wide).ac.toNat ≠ (withGe wide).top) :=
  ⟨⟨by decide, (rfl : validDD 103 true = true), (by decide : (63 : Nat) < 64)⟩, rfl, rfl, by decide⟩

/-- Three states, one in each display configuration. -/
def modes : List State := [powered, wide, { powered with extFont := true }]

theorem modes_render : ∀ s ∈ modes, ∃ t, render s = .next t := fun s _ => ⟨_, Laws.render_eq s⟩

theorem witness_SourceAddressesFollowTheShift : (∃ t, render wide = .next t) ∧ 39 < wide.lw ∧ 79 < powered.lw ∧
    wide.twoLine = true ∧ (powered.twoLine = false ∧ powered.extFont = false) ∧
    ({ powered with extFont := true }.twoLine = false ∧ { powered with extFont := true }.extFont = true) :=
  ⟨⟨_, Laws.render_eq _⟩, by decide⟩

/-- The state of the witnesses about drawn cells: display on, byte 0x41 at address 79. -/
def drawn : State := { powered with dispD := true, ddram := [(79, 0x41#8)] }

theorem witness_FirstGridShowsTheGlyphRows : drawn.pwr = true ∧ 79 < drawn.lw ∧
    (∃ t, render drawn = .next t ∧ t.grid0.source 79 = some 79) ∧ ddramRead drawn 79 = .ok 0x41#8 ∧
    (powered.pwr = true ∧ powered.dispD = false) ∧ 0 < drawn.cfg.params.glyphWidth ∧ 4 < drawn.cfg.params.glyphWidth := by
  refine ⟨by decide, by decide, ⟨_, Laws.render_eq _, ?_⟩, by decide⟩
  show (((drawGrids drawn (Laws.cells0 drawn) (Laws.cells1 drawn)).1.src)[79]?).bind id = some 79
  simp only [drawGrids, List.getElem?_map]
  rw [Laws.cells0_get drawn (by decide)]
  rfl

theorem witness_SecondGridByMode :
    (∀ s ∈ modes, s.pwr = true ∧ ¬(s.twoLine = true ∧ s.extFont = true) ∧ ∃ t, render s = .next t) ∧
    (39 < wide.lw ∧ 79 < powered.lw ∧ 4 < wide.cfg.params.glyphWidth) ∧
    ∃ t, render wide = .next t ∧ t.grid1.source 39 = some 103 := by
  refine ⟨?_, by decide, _, Laws.render_eq _, ?_⟩
  · intro s hs
    refine ⟨?_, ?_, modes_render s hs⟩ <;>
      (simp only [modes, List.mem_cons, List.not_mem_nil, or_false] at hs; rcases hs with rfl | rfl | rfl <;> decide)
  · show (((drawGrids wide (Laws.cells0 wide) (Laws.cells1 wide)).2.src)[39]?).bind id = some 103
    simp only [drawGrids, src1, show wide.twoLine = true from rfl, if_true, List.getElem?_map]
    rw [Laws.cells1_get wide rfl (by decide)]
    rfl

theorem witness_GlyphRowsComeFromCgramOrFont :
    (powered.extFont = false ∧ (7 : Nat) < 8 ∧ (7#8).toNat < 8) ∧ (8 ≤ (8#8).toNat ∧ (7 : Nat) < 16) ∧
    ({ powered with extFont := true }.extFont = true ∧ (10 : Nat) < 11 ∧ (5#8).toNat < 6 ∧
      (5#8).toNat < powered.cfg.params.extCgThreshold) ∧ powered.cfg.params.extCgThreshold ≤ (6#8).toNat ∧
    powered.cfg.params = decided := by
  refine ⟨by decide, by decide, by decide, by decide, rfl⟩

theorem witness_CursorCellAndItsOverlays : (0 : Nat) < 11 ∧ (10 : Nat) < 11 := by decide

theorem witness_UnpoweredRenderIsDark : State.reset.pwr = false ∧ (∃ t, render State.reset = .next t) ∧
    ∃ u, render { State.reset with pwr := true } = .next u :=
  ⟨by decide, ⟨_, Laws.render_eq _⟩, ⟨_, Laws.render_eq _⟩⟩

theorem witness_DisplayOffHidesDdram : powered.dispD = false := by decide

theorem witness_NoCursorWhileCgramIsAddressed : (inCg wide 3).addrCg = true := by decide

theorem witness_RenderReadsOnlyItsView : SameView wide { wide with rb := 0x41, ir := 0x38, bl := true } ∧
    wide.dispB = false ∧ (inCg wide 3).addrCg = true :=
  ⟨⟨rfl, rfl, rfl, rfl, rfl, rfl, rfl, rfl, rfl, rfl, rfl, rfl, rfl⟩, by decide⟩

/-- Two lines, AC at the last address. -/
def atTop : State := { wide with ac := 103 }

theorem witness_AtMostOneCursorCell :
    (∃ t, render atTop = .next t ∧ (t.grid true).source 39 = some 103) ∧
    cursorHere atTop 103 = true ∧ atTop.twoLine = true := by
  refine ⟨⟨_, Laws.render_eq _, ?_⟩, by decide⟩
  show (((drawGrids atTop (Laws.cells0 atTop)
    (Laws.cells1 atTop)).2.src)[39]?).bind id = some 103
  simp only [drawGrids, src1, show atTop.twoLine = true from rfl, if_true, List.getElem?_map]
  rw [Laws.cells1_get atTop rfl (by decide)]
  rfl

/-- The coming step commits the byte on DB. -/
def coming (s : State) (rs : Bool) (v : Byte) : State :=
  { bus s rs false v with inputs := [.host (.setEnable false)] }

theorem witness_EveryStepKeepsTheInvariant : Inv powered ∧ ∃ t, step powered = .next t :=
  ⟨inv_powered, goesOn (by decide)⟩

theorem witness_OnlyTheShiftHazardFaults : (Inv aboutToFault ∧ Hazard aboutToFault 46) ∧
    (Inv wide ∧ ∀ a, ¬ Hazard wide a) :=
  ⟨⟨inv_aboutToFault, by decide, by decide, by decide, by decide, by decide, by decide, by decide, by decide,
    false, true, 0, by decide, by decide, by decide, by decide⟩, inv_wide, fun _ h => by cases h.1⟩

theorem witness_OnlyFunctionSetAndResetChangeTheMode :
    (∃ t, step (coming powered false 0x38) = .next t) ∧ ¬ ComingReset (coming powered false 0x38) ∧
    after (step (coming powered false 0x38)) (fun t => t.twoLine != (coming powered false 0x38).twoLine) = some true :=
  ⟨goesOn (by decide), by unfold ComingReset; decide, by decide⟩

theorem witness_OnlyWritesClearAndResetChangeMemory :
    ¬ ComingReset (coming wide true 0x41) ∧
    after (step (coming wide true 0x41)) (fun t => ddByte t 0 != ddByte (coming wide true 0x41) 0) = some true ∧
    after (step (coming { wide with ddram := [(9, 0x41#8)] } false 0x01))
      (fun t => ddByte t 9 != ddByte { wide with ddram := [(9, 0x41#8)] } 9) = some true ∧
    after (step (coming (inCg fonted 63) true 0x1F)) (fun t => cgByte t 63 != cgByte fonted 63) = some true :=
  ⟨by unfold ComingReset; decide, by decide, by decide, by decide⟩

theorem witness_ParametersAndBlinkAreOutOfReach : (∃ t, step (coming powered false 0x38) = .next t) ∧
    (coming powered false 0x38).inputs.head? ≠ some .blinkToggle := ⟨goesOn (by decide), by decide⟩

theorem witness_ConstructionChecksTheFontStore :
    (1 ≤ decided.glyphWidth ∧ decided.glyphWidth ≤ 8) ∧
    { goodSupply with cursor8 := List.replicate 7 0#8 }.rowsSupplied false < 8 ∧
    (8 ≤ { goodSupply with cursor11 := List.replicate 10 0#8 }.rowsSupplied false ∧
      { goodSupply with cursor11 := List.replicate 10 0#8 }.rowsSupplied true < 11) ∧
    (8 ≤ goodSupply.rowsSupplied false ∧ 11 ≤ goodSupply.rowsSupplied true) ∧
    ({ decided with glyphWidth := 0 }.glyphWidth = 0 ∧ 8 < { decided with glyphWidth := 9 }.glyphWidth) ∧ 16 ≤ 16 := by
  decide +kernel

/-- Log 17: the rows counted are the fewest, 0 for a missing entry; surplus entries and rows do not add to the 16. -/
theorem test_rowsSupplied :
    { goodSupply with blink8 := List.replicate 5 0#8 }.rowsSupplied false = 5 ∧
    { goodSupply with glyphs11 := List.replicate 255 (List.replicate 11 0#8) }.rowsSupplied true = 0 ∧
    (let rows := List.replicate 17 0#8
     { goodSupply with glyphs8 := List.replicate 257 rows, cursor8 := rows, blink8 := rows }.rowsSupplied false = 16) := by
  decide +kernel

theorem witness_DotsOutsideTheGridAreRefused : Inv wide ∧
    (7 < 8 ∧ 199 < wide.lw * wide.cfg.params.glyphWidth) ∧ ¬(8 < 8 ∧ 199 < wide.lw * wide.cfg.params.glyphWidth) ∧
    ¬(7 < 8 ∧ 200 < wide.lw * wide.cfg.params.glyphWidth) := ⟨inv_wide, by decide⟩

end Tests
end Sys2Proof
end

section
/-! PROOFS. The parameters of the machine after reset (00_scope.md R10). The two parameters that are tables are read here
once, at every index, as the functions that the spec decides (log 7, log 10). -/

namespace Sys2Proof
namespace Proofs

open Sys2Proof.Machine

/-- Row `old` of the decided LOAD_DIR table has a bit set for each address above `old` (D11). -/
theorem loadDirUp_getElem (old : Addr) : loadDirUp[old.toFin] = BitVec.allOnes 128 <<< (old.toNat + 1) := by
  simp [loadDirUp]

/-- The decided LOAD_DIR for every pair of addresses (R232; D11, log 7). -/
theorem loadDir_decided (old new : Addr) : loadDir decided old new = if old < new then .inc else .dec := by
  have hbit : (loadDirUp[old.toFin]).getLsbD new.toNat = true ↔ old < new := by
    have hnew : new.toNat < 128 := new.isLt
    rw [loadDirUp_getElem, BitVec.lt_def]
    simp only [BitVec.getLsbD_shiftLeft, BitVec.getLsbD_allOnes, Bool.and_eq_true, Bool.not_eq_true',
      decide_eq_true_eq, decide_eq_false_iff_not]
    omega
  exact if_congr hbit rfl rfl

/-- The decided EXT_CG_BASE for every character code (R91; D20, log 10). -/
theorem extCgBase_decided (k : Byte) : extCgBase decided k = (k &&& 0b110#8).toNat * 11 := by
  simp [extCgBase, decided, extCgBaseTable]

/-- Settles O59: the scalar parameters are fields of `decided`; the two tables are read by the lemmas above. -/
theorem resetCarriesTheDecidedParameters : Obligations.ResetCarriesTheDecidedParameters :=
  ⟨rfl, rfl, rfl, rfl, rfl, rfl, loadDir_decided, extCgBase_decided⟩

end Proofs
end Sys2Proof
end

section
/-! PROOFS. The frame of the nine instructions of IR (41_instructions.md, introduction, and R65): which fields
`commandEffect` writes, said once for every instruction. -/

namespace Sys2Proof
namespace Proofs

open Sys2Proof.Machine Sys2Proof.Safety Sys2Proof.Laws

/-- The registers and flags that instructions write are outside their frame, whatever is written there. -/
theorem commandFrame_update (s : State) (ac : Addr) (cg idf sh d c b four two ext : Bool) (shift : Int) (dd : Memory) :
    CommandFrame s { s with ac := ac, addrCg := cg, idFlag := idf, shFlag := sh, dispD := d, dispC := c, dispB := b,
                            fourBit := four, twoLine := two, extFont := ext, shift := shift, ddram := dd } :=
  ⟨⟨rfl, rfl, rfl, rfl, rfl, rfl⟩, ⟨rfl, rfl, rfl, rfl⟩, ⟨rfl, rfl, rfl⟩, rfl, ⟨rfl, rfl⟩, ⟨rfl, rfl, rfl, rfl⟩⟩

theorem commandEffect_frame (i : Instr) (s : State) : CommandFrame s (commandEffect i s) := by
  cases i with
  | shift screen right x => cases screen <;> exact commandFrame_update s ..
  | _ => exact commandFrame_update s ..

theorem commandEffect_ddram {i : Instr} (h : i ≠ .clearDisplay) (s : State) : (commandEffect i s).ddram = s.ddram := by
  cases i with
  | clearDisplay => exact absurd rfl h
  | shift screen right x => cases screen <;> rfl
  | _ => rfl

/-- FUNCTION_SET alone writes the bus width, the line count and the font (R49 to R51). -/
theorem commandEffect_mode {i : Instr} (h : ∀ dl n f x, i ≠ .functionSet dl n f x) (s : State) :
    (commandEffect i s).fourBit = s.fourBit ∧ (commandEffect i s).twoLine = s.twoLine ∧
      (commandEffect i s).extFont = s.extFont := by
  cases i with
  | functionSet dl n f x => exact absurd rfl (h dl n f x)
  | shift screen right x => cases screen <;> exact ⟨rfl, rfl, rfl⟩
  | _ => exact ⟨rfl, rfl, rfl⟩

/-- Settles O31: every instruction goes on to its effect, and the effect keeps the frame. -/
theorem instructionsLeaveTheFrame : Obligations.InstructionsLeaveTheFrame := fun b s =>
  ⟨_, exec_decodeIR b s, commandEffect_frame _ s, fun h => commandEffect_ddram h s⟩

end Proofs
end Sys2Proof
end

section
/-! PROOFS. The invariant (10_state.md R40, R52, R54; 42_address_counter.md R235). While a committed edge runs, BF is set,
the grids are those of the last render, and DDRAM may be addressed off the map; `MidCommit` is the rest of the
invariant, and the end of the edge restores what it leaves out. -/

namespace Sys2Proof
namespace Proofs

open Sys2Proof.Machine Sys2Proof.Safety Sys2Proof.Laws

/-- The invariant without BF, the grids and the validity of a DDRAM address. -/
structure MidCommit (s : State) : Prop where
  noFault : s.fault = none
  oneFont : ¬(s.twoLine = true ∧ s.extFont = true)
  nibble : s.nibPend = true → s.fourBit = true
  cgAddr : s.addrCg = true → s.ac.toNat < 64
  ddram : Memory.wf ddramUnlisted ddramSize s.ddram = true
  cgram : Memory.wf (cgramUnlisted s.cfg) cgramSize s.cgram = true
  dataPhase : s.rdDataPhase = true → s.cfg.params.fourBitDataRead = .split

theorem midCommit_of_inv {s : State} (h : Inv s) : MidCommit s :=
  { h with cgAddr := fun hc => (acValid_cg hc).1 h.ac }

/-- A render completes the invariant of a state whose BF is clear and whose AC is valid. -/
theorem inv_setGrids {s : State} (h : MidCommit s) (hb : s.bf = false) (ha : AcValid s) :
    Inv (s.setGrids (grids s)) :=
  { h with idle := hb, ac := ha, grid0 := (grids_fit s).1, grid1 := (grids_fit s).2 }

/-- RefreshRB reads its cell only with a valid AC, so the end of a committed edge restores the invariant (R162,
R168). -/
theorem inv_endState {u : State} {v : Byte} (h : MidCommit u) (hv : addressed u = .ok v) : Inv (endState u v) := by
  have ha : AcValid u := by
    cases hc : u.addrCg with
    | true => exact (acValid_cg hc).2 (h.cgAddr hc)
    | false =>
      rw [acValid_dd hc]
      by_contra hd
      rw [addressed_of_invalid hc (by simpa using hd)] at hv
      cases hv
  exact inv_setGrids (s := { u with bf := false, rb := v }) { h with } rfl ha

theorem inv_finish {u t : State} (h : MidCommit u) (ht : finish (.next u) = .next t) : Inv t := by
  obtain ⟨v, hv, rfl⟩ := finish_eq_next ht
  exact inv_endState h hv

/-- The latch of a committed edge leaves no half byte pending, in either bus width (R54, R164). -/
theorem commandState_nibPend {s : State} (h : Inv s) : (commandState s).nibPend = false := by
  show (if s.fourBit then false else s.nibPend) = false
  cases hf : s.fourBit with
  | true => rfl
  | false => simpa [hf] using h.nibble

theorem midCommit_commandState {s : State} (h : Inv s) : MidCommit (commandState s) :=
  { midCommit_of_inv h with nibble := fun hn => by rw [commandState_nibPend h] at hn; cases hn }

theorem midCommit_dataState {s : State} (h : Inv s) : MidCommit (dataState s) :=
  { midCommit_commandState h with }

/-- FUNCTION_SET may leave 4-bit mode, so it asks that no half byte be pending. -/
theorem midCommit_commandEffect {s : State} (h : MidCommit s) (hn : s.nibPend = false) (i : Instr) :
    MidCommit (commandEffect i s) := by
  cases i with
  | clearDisplay => exact { h with cgAddr := nofun, ddram := nil_wf _ }
  | returnHome x => exact { h with cgAddr := nofun }
  | shift screen right x => cases screen <;> exact { h with cgAddr := nofun }
  | functionSet dl n f x =>
    have hfont : ¬(n = true ∧ (f && !n) = true) := by cases n <;> simp
    have hnib : s.nibPend = true → (!dl) = true := by simp [hn]
    have hcg : s.addrCg = true → (commandEffect (.functionSet dl n f x) s).ac.toNat < 64 := fun hc => by
      simpa [commandEffect, hc] using h.cgAddr hc
    exact { h with oneFont := hfont, nibble := hnib, cgAddr := hcg }
  | setCgramAddr a =>
    have ha : (a.setWidth 7).toNat < 64 := by rw [BitVec.toNat_setWidth]; omega
    exact { h with cgAddr := fun _ => ha }
  | setDdramAddr a => exact { h with cgAddr := nofun }
  | _ => exact { h with }

theorem dataEffect_ddram (s : State) (v : Byte) : (dataEffect s v).ddram =
    if s.addrCg then s.ddram else Memory.write ddramUnlisted s.ddram (phys s.ac.toNat s.twoLine).toNat v := rfl

theorem dataEffect_cgram (s : State) (v : Byte) : (dataEffect s v).cgram =
    if s.addrCg then Memory.write (cgramUnlisted s.cfg) s.cgram (cgramIndex s.ac.toNat) v else s.cgram := rfl

/-- A data write stores at an index inside the memory addressed, and steps AC inside it (R165, R231). -/
theorem midCommit_dataEffect {s : State} (h : MidCommit s) (ha : s.addrCg = false → validDD s.ac.toNat s.twoLine = true)
    (v : Byte) : MidCommit (dataEffect s v) := by
  have hdd : Memory.wf ddramUnlisted ddramSize (dataEffect s v).ddram = true := by
    rw [dataEffect_ddram]
    split
    · exact h.ddram
    · next hc => exact write_wf v h.ddram (ddramIndex_of_valid (ha (by simpa using hc))).2
  have hcg : Memory.wf (cgramUnlisted s.cfg) cgramSize (dataEffect s v).cgram = true := by
    rw [dataEffect_cgram]
    split
    · exact write_wf v h.cgram (cgramIndex_lt _)
    · exact h.cgram
  exact { h with cgAddr := fun hc => (acValid_cg hc).1 (dataEffect_acValid s v), ddram := hdd, cgram := hcg }

theorem inv_edge {s t : State} {rs rw : Bool} {edge : Edge} {o : Res} (h : Inv s) (hd : EdgeDoes s rs rw edge o)
    (ho : o = .next t) : Inv t := by
  have hstep : AcValid (advanceAC s (dirOf s.idFlag)) := advanceAC_acValid s _
  cases hd with
  | writeRise => cases ho; exact h
  | busyRead => cases ho; exact { h with }
  | busyFall => cases ho; exact h
  | dataRise => cases ho; exact { h with ac := hstep }
  | firstHalfRise hs => cases ho; exact { h with dataPhase := fun _ => hs.2 }
  | secondHalfRise => cases ho; exact { h with ac := hstep, dataPhase := nofun }
  | dataFall => exact inv_finish (midCommit_of_inv h) ho
  | firstHalfFall hs hp u hu =>
    cases ho
    subst hu
    exact inv_setGrids { midCommit_of_inv h with } rfl h.ac
  | firstHalf rs hc ir dr u hu =>
    cases ho
    subst hu
    exact inv_setGrids { midCommit_of_inv h with nibble := fun _ => (not_completesByte hc).1 } rfl h.ac
  | instruction =>
    exact inv_finish (midCommit_commandEffect (midCommit_commandState h) (commandState_nibPend h) _) ho
  | data hc ha => exact inv_finish (midCommit_dataEffect (midCommit_dataState h) ha _) ho
  | dataOffTheMap => cases ho

/-- Reset makes the invariant hold wherever FAULT is none (R341). -/
theorem inv_resetBlock {s t : State} (hf : s.fault = none) (h : resetBlock s = .next t) : Inv t := by
  rw [resetBlock_eq] at h
  cases h
  exact inv_setGrids ⟨hf, nofun, nofun, nofun, nil_wf _, nil_wf _, nofun⟩ rfl (rfl : validDD 0 false = true)

theorem inv_stepDoes {s t : State} {o : Res} (h : Inv s) (hd : StepDoes s o) (ho : o = .next t) : Inv t := by
  cases hd with
  | faulted => cases ho
  | waits => cases ho; exact h
  | pins => cases ho; exact { h with }
  | level => cases ho; exact { h with }
  | edge _ rest b =>
    exact inv_edge (s := { s with inputs := rest, e := b }) { h with } (edge_cases _ s.rs s.rw (edgeTo b)) ho
  | samePower => cases ho; exact { h with }
  | powerOn hf rest => exact inv_resetBlock (s := { s with inputs := rest, pwr := true }) hf ho
  | renders _ rest p u hu =>
    cases ho
    subst hu
    exact inv_setGrids { midCommit_of_inv h with } h.idle h.ac
  | resets hf rest => exact inv_resetBlock (s := { s with inputs := rest }) hf ho
  | blinks => cases ho; exact { h with }

/-- Settles O52, by the cases of a step. -/
theorem everyStepKeepsTheInvariant : Obligations.EveryStepKeepsTheInvariant :=
  fun s _ h ht => inv_stepDoes h (step_cases s) ht

end Proofs
end Sys2Proof
end

section
/-! PROOFS. What a step can change of the mode and of the memories (10_state.md R65): a step that is no Reset keeps them
all unless it commits a byte, and then they are those that the instruction or the data write leaves. -/

namespace Sys2Proof
namespace Proofs

open Sys2Proof.Machine Sys2Proof.Safety Sys2Proof.Laws

/-- Two states agree on the bus width, the line count, the font, both memories and the parameters. -/
structure SameStores (s t : State) : Prop where
  fourBit : t.fourBit = s.fourBit
  twoLine : t.twoLine = s.twoLine
  extFont : t.extFont = s.extFont
  ddram : t.ddram = s.ddram
  cgram : t.cgram = s.cgram
  cfg : t.cfg = s.cfg

/-- What is left of the mode and the memories from s to t, where `commits` says when an edge commits a byte on the
instruction side (false) or on the data side (true). The effect is applied in a state u, the one that the edge has
prepared (BF set, the byte latched), which agrees with s on all of them. -/
inductive StoresAfter (commits : Bool → Prop) (s t : State) : Prop where
  | kept (h : SameStores s t)
  | command (hc : commits false) (u : State) (hu : SameStores s u)
      (ht : SameStores (commandEffect (decodeIR (committedByte s)) u) t)
  | data (hc : commits true) (u : State) (v : Byte) (hu : SameStores s u) (hcg : u.addrCg = s.addrCg)
      (hac : u.ac = s.ac) (ht : SameStores (dataEffect u v) t)

/-- The edge is the falling one of a write on the given side, and it completes the byte (R162). -/
def CommitsAt (s : State) (rs rw : Bool) (edge : Edge) (dataSide : Bool) : Prop :=
  rs = dataSide ∧ rw = false ∧ edge = .falling ∧ completesByte s = true

/-- The end of a committed edge writes none of the stores. -/
theorem sameStores_finish {u t : State} (h : finish (.next u) = .next t) : SameStores u t := by
  obtain ⟨v, -, rfl⟩ := finish_eq_next h
  exact ⟨rfl, rfl, rfl, rfl, rfl, rfl⟩

theorem storesAfter_edge {s t : State} {rs rw : Bool} {edge : Edge} {o : Res} (hd : EdgeDoes s rs rw edge o)
    (ho : o = .next t) : StoresAfter (CommitsAt s rs rw edge) s t := by
  cases hd with
  | instruction hc =>
    exact .command ⟨rfl, rfl, rfl, hc⟩ (commandState s) ⟨rfl, rfl, rfl, rfl, rfl, rfl⟩ (sameStores_finish ho)
  | data hc =>
    exact .data ⟨rfl, rfl, rfl, hc⟩ (dataState s) _ ⟨rfl, rfl, rfl, rfl, rfl, rfl⟩ rfl rfl (sameStores_finish ho)
  | dataFall => exact .kept (sameStores_finish ho)
  | firstHalfFall _ _ u hu => cases ho; subst hu; exact .kept ⟨rfl, rfl, rfl, rfl, rfl, rfl⟩
  | firstHalf _ _ _ _ u hu => cases ho; subst hu; exact .kept ⟨rfl, rfl, rfl, rfl, rfl, rfl⟩
  | dataOffTheMap => cases ho
  | _ => cases ho; exact .kept ⟨rfl, rfl, rfl, rfl, rfl, rfl⟩

theorem comingWriteEdge_of_commitsAt {s : State} {rest : List AgentStep} {b dataSide : Bool}
    (hi : s.inputs = .host (.setEnable b) :: rest) (hp : s.pwr = true) (he : s.e = !b)
    (h : CommitsAt s s.rs s.rw (edgeTo b) dataSide) : ComingWriteEdge s dataSide := by
  obtain ⟨hrs, hrw, hedge, hc⟩ := h
  cases b with
  | true => cases hedge
  | false => exact ⟨by rw [hi]; rfl, hp, he, hrs, hrw, hc⟩

theorem storesAfter_step {s t : State} {o : Res} (hr : ¬ ComingReset s) (hd : StepDoes s o) (ho : o = .next t) :
    StoresAfter (ComingWriteEdge s) s t := by
  cases hd with
  | edge _ rest b hi hp he =>
    have hcome {d : Bool} : CommitsAt s s.rs s.rw (edgeTo b) d → ComingWriteEdge s d :=
      comingWriteEdge_of_commitsAt hi hp he
    cases storesAfter_edge (edge_cases _ s.rs s.rw (edgeTo b)) ho with
    | kept h => exact .kept { h with }
    | command hc u hu ht => exact .command (hcome hc) u { hu with } ht
    | data hc u v hu hcg hac ht => exact .data (hcome hc) u v { hu with } hcg hac ht
  | powerOn _ rest hi hp => exact absurd (.inr ⟨by rw [hi]; rfl, hp⟩) hr
  | resets _ rest hi => exact absurd (.inl (by rw [hi]; rfl)) hr
  | renders _ _ _ u hu => cases ho; subst hu; exact .kept ⟨rfl, rfl, rfl, rfl, rfl, rfl⟩
  | faulted => cases ho
  | _ => cases ho; exact .kept ⟨rfl, rfl, rfl, rfl, rfl, rfl⟩

/-- Settles O55: a data write keeps the mode, and of the instructions FUNCTION_SET alone writes it. -/
theorem onlyFunctionSetAndResetChangeTheMode : Obligations.OnlyFunctionSetAndResetChangeTheMode := by
  intro s t hst hr hne
  cases storesAfter_step hr (step_cases s) hst with
  | kept h => simp [h.fourBit, h.twoLine, h.extFont] at hne
  | data _ u v hu _ _ ht =>
    have hfour : t.fourBit = s.fourBit := ht.fourBit.trans hu.fourBit
    have htwo : t.twoLine = s.twoLine := ht.twoLine.trans hu.twoLine
    have hext : t.extFont = s.extFont := ht.extFont.trans hu.extFont
    simp [hfour, htwo, hext] at hne
  | command hc u hu ht =>
    refine ⟨hc, ?_⟩
    by_contra hfs
    obtain ⟨hfour, htwo, hext⟩ := commandEffect_mode (fun dl n f x h => hfs ⟨dl, n, f, x, h⟩) u
    simp [ht.fourBit, ht.twoLine, ht.extFont, hfour, htwo, hext, hu.fourBit, hu.twoLine, hu.extFont] at hne

/-- A data write changes one byte of DDRAM at most, the one that AC addresses, and none while CGRAM is addressed. -/
theorem dataEffect_ddByte {s : State} {v : Byte} {p : Nat} (h : ddByte (dataEffect s v) p ≠ ddByte s p) :
    s.addrCg = false ∧ p = (phys s.ac.toNat s.twoLine).toNat := by
  cases hcg : s.addrCg with
  | true => exact absurd (by simp [ddByte, dataEffect_ddram, hcg]) h
  | false =>
    refine ⟨rfl, ?_⟩
    by_contra hp
    exact h (by simpa [ddByte, dataEffect_ddram, hcg] using read_write_other s.ddram v hp)

/-- The same of CGRAM. -/
theorem dataEffect_cgByte {s : State} {v : Byte} {a : Nat} (h : cgByte (dataEffect s v) a ≠ cgByte s a) :
    s.addrCg = true ∧ a = s.ac.toNat % 64 := by
  cases hcg : s.addrCg with
  | false => exact absurd (by rw [cgByte, dataEffect_cgram, hcg]; rfl) h
  | true =>
    refine ⟨rfl, ?_⟩
    by_contra ha
    rw [cgByte, dataEffect_cgram, hcg] at h
    exact h (read_write_other s.cgram (a := cgramIndex s.ac.toNat) v ha)

theorem ddByte_congr {s t : State} (h : SameStores s t) (p : Nat) : ddByte t p = ddByte s p := by
  simp [ddByte, h.ddram]

theorem cgByte_congr {s t : State} (h : SameStores s t) (a : Nat) : cgByte t a = cgByte s a := by
  simp [cgByte, h.cgram, h.cfg]

/-- Settles O56: of the effects, a data write changes the byte addressed, and CLEAR_DISPLAY alone changes DDRAM. -/
theorem onlyWritesClearAndResetChangeMemory : Obligations.OnlyWritesClearAndResetChangeMemory := by
  intro s t hst hr
  cases storesAfter_step hr (step_cases s) hst with
  | kept h => exact ⟨fun p hp => absurd (ddByte_congr h p) hp, fun a ha => absurd (cgByte_congr h a) ha⟩
  | command hc u hu ht =>
    constructor
    · intro p hp
      refine .inr ⟨hc, ?_⟩
      by_contra hclear
      exact hp (by simp [ddByte, ht.ddram, commandEffect_ddram hclear u, hu.ddram])
    · intro a ha
      have hf := commandEffect_frame (decodeIR (committedByte s)) u
      exact absurd (by simp [cgByte, ht.cgram, ht.cfg, hf.cgram, hf.rest, hu.cgram, hu.cfg]) ha
  | data hc u v hu hcg hac ht =>
    constructor
    · intro p hp
      rw [ddByte_congr ht, ← ddByte_congr hu] at hp
      obtain ⟨h, rfl⟩ := dataEffect_ddByte hp
      exact .inl ⟨hc, hcg ▸ h, by rw [hac, hu.twoLine]⟩
    · intro a ha
      rw [cgByte_congr ht, ← cgByte_congr hu] at ha
      obtain ⟨h, rfl⟩ := dataEffect_cgByte ha
      exact ⟨hc, hcg ▸ h, by rw [hac]⟩

end Proofs
end Sys2Proof
end

section
/-! PROOFS. What no agent's step reaches (10_state.md R30, R59; 20_memory.md R93). -/

namespace Sys2Proof
namespace Proofs

open Sys2Proof.Machine Sys2Proof.Safety Sys2Proof.Laws

/-- No enable edge writes the parameters, FAULT or BLINK. -/
theorem edge_keeps_cfg_fault_blink {s t : State} {rs rw : Bool} {edge : Edge} {o : Res} (hd : EdgeDoes s rs rw edge o)
    (ho : o = .next t) : t.cfg = s.cfg ∧ t.fault = s.fault ∧ t.blink = s.blink := by
  cases hd with
  | instruction =>
    obtain ⟨v, -, rfl⟩ := finish_eq_next ho
    obtain ⟨hblink, hfault, hcfg, -⟩ := (commandEffect_frame (decodeIR (committedByte s)) (commandState s)).rest
    exact ⟨hcfg, hfault, hblink⟩
  | data => obtain ⟨v, -, rfl⟩ := finish_eq_next ho; exact ⟨rfl, rfl, rfl⟩
  | dataFall => obtain ⟨v, -, rfl⟩ := finish_eq_next ho; exact ⟨rfl, rfl, rfl⟩
  | firstHalfFall _ _ u hu => cases ho; subst hu; exact ⟨rfl, rfl, rfl⟩
  | firstHalf _ _ _ _ u hu => cases ho; subst hu; exact ⟨rfl, rfl, rfl⟩
  | dataOffTheMap => cases ho
  | _ => cases ho; exact ⟨rfl, rfl, rfl⟩

/-- Nor does Reset. -/
theorem resetBlock_keeps_cfg_fault_blink {s t : State} (h : resetBlock s = .next t) :
    t.cfg = s.cfg ∧ t.fault = s.fault ∧ t.blink = s.blink := by
  rw [resetBlock_eq] at h
  cases h
  exact ⟨rfl, rfl, rfl⟩

/-- A step keeps the parameters and FAULT, and BLINK unless it is the blink clock's. -/
theorem step_keeps_cfg_fault_blink {s t : State} {o : Res} (hd : StepDoes s o) (ho : o = .next t) :
    t.cfg = s.cfg ∧ t.fault = s.fault ∧ (s.inputs.head? ≠ some .blinkToggle → t.blink = s.blink) := by
  cases hd with
  | blinks _ rest hi => cases ho; exact ⟨rfl, rfl, fun h => absurd (by rw [hi]; rfl) h⟩
  | edge _ _ b =>
    obtain ⟨hcfg, hfault, hblink⟩ := edge_keeps_cfg_fault_blink (edge_cases _ s.rs s.rw (edgeTo b)) ho
    exact ⟨hcfg, hfault, fun _ => hblink⟩
  | powerOn =>
    obtain ⟨hcfg, hfault, hblink⟩ := resetBlock_keeps_cfg_fault_blink ho
    exact ⟨hcfg, hfault, fun _ => hblink⟩
  | resets =>
    obtain ⟨hcfg, hfault, hblink⟩ := resetBlock_keeps_cfg_fault_blink ho
    exact ⟨hcfg, hfault, fun _ => hblink⟩
  | renders _ _ _ u hu => cases ho; subst hu; exact ⟨rfl, rfl, fun _ => rfl⟩
  | faulted => cases ho
  | _ => cases ho; exact ⟨rfl, rfl, fun _ => rfl⟩

/-- Settles O57, by the cases of a step. -/
theorem parametersAndBlinkAreOutOfReach : Obligations.ParametersAndBlinkAreOutOfReach :=
  fun s _ h => step_keeps_cfg_fault_blink (step_cases s) h

end Proofs
end Sys2Proof
end

section
/-! PROOFS. The dot getter over grids of the mode's size (10_state.md R57; 40_bus_cycles.md R173). -/

namespace Sys2Proof
namespace Proofs

open Sys2Proof.Machine Sys2Proof.Safety Sys2Proof.Laws

theorem inv_grid {s : State} (h : Inv s) (line : Bool) : GridFits s.cfg.params.glyphWidth s.lw (s.grid line) := by
  cases line
  · exact h.grid0
  · exact h.grid1

/-- A grid that fits has a dot exactly at the coordinates below 8 and below its width in dots. -/
theorem dot?_isSome_iff {gw w : Nat} {g : Grid} (h : GridFits gw w g) (y x : Nat) :
    (g.dot? y x).isSome = true ↔ y < 8 ∧ x < w * gw := by
  unfold Grid.dot?
  by_cases hy : y < g.dots.length
  · have hrow : g.dots[y].length = w * gw := h.dots _ (List.getElem_mem hy)
    simp [List.getElem?_eq_getElem hy, hrow, (h.rows ▸ hy : y < 8)]
  · have hy8 : ¬ y < 8 := h.rows ▸ hy
    simp [List.getElem?_eq_none (Nat.le_of_not_lt hy), hy8]

/-- Settles O60: the getter answers where the grid has a dot, and the invariant says where that is. -/
theorem dotsOutsideTheGridAreRefused : Obligations.DotsOutsideTheGridAreRefused := by
  intro s h line y x
  rw [← dot?_isSome_iff (inv_grid h line) y x]
  unfold readDot
  cases (s.grid line).dot? y x <;> simp

end Proofs
end Sys2Proof
end

section
/-! PROOFS. The DDRAM accessors by the map of valid addresses (20_memory.md R82 to R87): each is said once as a choice
on `validDD`, over every integer address, and the claims about it are read off. -/

namespace Sys2Proof
namespace Proofs

open Sys2Proof.Machine Sys2Proof.Safety Sys2Proof.Laws

/-- The checks of R84 pass exactly at the valid addresses of R82. -/
theorem ddramIndex_eq (a : Int) (two : Bool) : ddramIndex a two =
    if validDD a two then .ok (phys a two).toNat else .error (.ddramAddress a two) := by
  cases a with
  | ofNat n =>
    cases hv : validDD (Int.ofNat n) two with
    | true => exact (ddramIndex_of_valid hv).1
    | false => exact ddramIndex_of_invalid hv
  | negSucc n =>
    have hneg : Int.negSucc n < 0 := Int.negSucc_lt_zero n
    have hv : validDD (Int.negSucc n) two = false := by cases two <;> simp [validDD]; omega
    simp [ddramIndex, hneg, hv]

/-- The physical index of a valid address is inside DDRAM (R81, R83). -/
theorem phys_toNat_lt {a : Int} {two : Bool} (h : validDD a two = true) : (phys a two).toNat < ddramSize := by
  have ha : 0 ≤ a := by cases two <;> simp [validDD] at h <;> omega
  obtain ⟨n, rfl⟩ := Int.eq_ofNat_of_zero_le ha
  exact (ddramIndex_of_valid h).2

theorem ddramRead_eq (s : State) (a : Int) : ddramRead s a =
    if validDD a s.twoLine then .ok (ddByte s (phys a s.twoLine).toNat) else .error (.ddramAddress a s.twoLine) := by
  unfold ddramRead
  rw [ddramIndex_eq]
  cases validDD a s.twoLine <;> rfl

theorem ddramWrite_eq (s : State) (a : Int) (v : Byte) : ddramWrite s a v =
    if validDD a s.twoLine then
      .next { s with ddram := Memory.write ddramUnlisted s.ddram (phys a s.twoLine).toNat v }
    else .fault (.ddramAddress a s.twoLine) := by
  unfold ddramWrite
  rw [ddramIndex_eq]
  cases validDD a s.twoLine <;> rfl

/-- A read at a valid address, its physical index named. -/
theorem ddramRead_of_phys {s : State} {a : Int} {p : Nat} (hv : validDD a s.twoLine = true)
    (hp : (phys a s.twoLine).toNat = p) : ddramRead s a = .ok (ddByte s p) := by
  rw [ddramRead_eq, if_pos hv, hp]

/-- What a read gives with another memory in place. -/
theorem ddramRead_setDdram (s : State) (m : Memory) {a : Int} (hv : validDD a s.twoLine = true) :
    ddramRead { s with ddram := m } a = .ok (Memory.read ddramUnlisted m (phys a s.twoLine).toNat) :=
  ddramRead_of_phys (s := { s with ddram := m }) hv rfl

/-- Settles O15: the second line, the addresses that are their own index, and those off the map. -/
theorem ddramReadFaultsOffTheMap : Obligations.DdramReadFaultsOffTheMap := by
  intro s a
  refine ⟨fun htwo hlo hhi => ?_, fun hlo hhi => ?_, fun hoff => ?_⟩
  · have hv : validDD a s.twoLine = true := by simp [validDD, htwo, hlo, hhi]
    exact ddramRead_of_phys hv (by simp [phys, htwo, hlo])
  · have hv : validDD a s.twoLine = true := by cases htwo : s.twoLine <;> simp [validDD, htwo] at hhi ⊢ <;> omega
    have hp : phys a s.twoLine = a := by
      unfold phys
      rw [if_neg]
      cases htwo : s.twoLine <;> simp [htwo] at hhi ⊢
      omega
    exact ddramRead_of_phys hv (by rw [hp])
  · have hv : validDD a s.twoLine = false := by cases htwo : s.twoLine <;> simp [validDD, htwo] at hoff ⊢ <;> omega
    simp [ddramRead_eq, hv]

/-- Settles O16: a write that passes the checks is a `Memory.write` at the physical index, whose laws say the rest. -/
theorem ddramWriteIsReadBack : Obligations.DdramWriteIsReadBack := by
  intro s a v hwf
  refine ⟨fun hv => ?_, fun hv => by simp [ddramWrite_eq, hv]⟩
  have hstore : ddramWrite s a v =
      .next { s with ddram := Memory.write ddramUnlisted s.ddram (phys a s.twoLine).toNat v } := by
    rw [ddramWrite_eq, if_pos hv]
  have hread : Memory.read ddramUnlisted (Memory.write ddramUnlisted s.ddram (phys a s.twoLine).toNat v)
      (phys a s.twoLine).toNat = v := read_write_same (wf_iff.1 hwf).1 _ v
  exact ⟨_, hstore, (ddramRead_setDdram s _ hv).trans (congrArg Except.ok hread),
    fun p hp => read_write_other (u := ddramUnlisted) s.ddram v hp, rfl, write_wf v hwf (phys_toNat_lt hv)⟩

/-- Settles O17: both addresses of a pair are valid in their mode and have one physical index. -/
theorem lineModesAliasTheSameCells : Obligations.LineModesAliasTheSameCells := by
  intro s n hn
  constructor
  · have htwo : ddramRead { s with twoLine := true } (64 + n) = .ok (ddByte s (40 + n)) :=
      ddramRead_of_phys (by simp [validDD]; omega) (by simp [phys]; omega)
    have hone : ddramRead { s with twoLine := false } (40 + n) = .ok (ddByte s (40 + n)) :=
      ddramRead_of_phys (by simp [validDD]; omega) (by simp [phys]; omega)
    rw [htwo, hone]
  · have htwo : ddramRead { s with twoLine := true } n = .ok (ddByte s n) :=
      ddramRead_of_phys (by simp [validDD]; omega) (by simp [phys]; omega)
    have hone : ddramRead { s with twoLine := false } n = .ok (ddByte s n) :=
      ddramRead_of_phys (by simp [validDD]; omega) (by simp [phys])
    rw [htwo, hone]

end Proofs
end Sys2Proof
end

section
/-! PROOFS. The one hazard (70_reset_and_hazards.md R350). Every operation of a committed edge leaves a valid AC but a
Cursor/Display Shift, which switches to DDRAM without renormalizing the CGRAM address (41_instructions.md R195); so
RefreshRB at the end of the edge faults there and nowhere else. -/

namespace Sys2Proof
namespace Proofs

open Sys2Proof.Machine Sys2Proof.Safety Sys2Proof.Laws

/-- The part of `Hazard` that speaks of the instruction and not of the edge: it is a Cursor/Display Shift that takes a
CGRAM address a into the two-line gap. -/
def ShiftsIntoGap (s : State) (i : Instr) (a : Addr) : Prop :=
  s.addrCg = true ∧ s.twoLine = true ∧ ∃ screen right x, i = .shift screen right x ∧
    a = acAfterCgShift s screen right ∧ 40 ≤ a.toNat ∧ a.toNat ≤ 63

theorem hazard_iff (s : State) (a : Addr) :
    Hazard s a ↔ ComingWriteEdge s false ∧ ShiftsIntoGap s (decodeIR (committedByte s)) a := by
  simp only [Hazard, ComingWriteEdge, ShiftsIntoGap, and_assoc]

/-- What a Cursor/Display Shift leaves of the addressing when CGRAM was addressed (R195). -/
theorem commandEffect_shift_cg {s : State} (hcg : s.addrCg = true) (screen right : Bool) (x : BitVec 2) :
    (commandEffect (.shift screen right x) s).addrCg = false ∧
      (commandEffect (.shift screen right x) s).ac = acAfterCgShift s screen right ∧
      (commandEffect (.shift screen right x) s).twoLine = s.twoLine := by
  cases screen with
  | true => exact ⟨rfl, rfl, rfl⟩
  | false => exact ⟨rfl, by simp [commandEffect, acAfterCgShift, advanceAC, hcg], rfl⟩

/-- Without a switch of addressing a Cursor/Display Shift leaves a valid AC. -/
theorem commandEffect_shift_dd {s : State} (h : AcValid s) (hcg : s.addrCg = false) (screen right : Bool)
    (x : BitVec 2) : AcValid (commandEffect (.shift screen right x) s) := by
  have hcg' : (commandEffect (.shift screen right x) s).addrCg = s.addrCg := by cases screen <;> exact hcg.symm
  cases screen with
  | true => exact (acValid_congr (s := s) hcg' rfl rfl).2 h
  | false => exact (acValid_congr (s := advanceAC s (dirOf right)) hcg' rfl rfl).2 (advanceAC_acValid s _)

theorem acAfterCgShift_lt {s : State} (h : s.ac.toNat < 64) (screen right : Bool) :
    (acAfterCgShift s screen right).toNat < 64 := by
  cases screen with
  | true => exact h
  | false => exact stepCg_lt _ _

/-- A CGRAM address is a valid DDRAM address unless it is in the two-line gap (R82). -/
theorem validDD_of_lt {a : Nat} {two : Bool} (h : a < 64) (hgap : two = true → a < 40) : validDD a two = true := by
  rw [validDD_iff]
  cases two with
  | false => simp only [Bool.false_eq_true, if_false]; omega
  | true => exact .inl (by have := hgap rfl; omega)

/-- An instruction of IR leaves a valid AC, or it is a Cursor/Display Shift into the gap (R235, R350). -/
theorem commandEffect_acValid_or {s : State} (h : AcValid s) (i : Instr) :
    AcValid (commandEffect i s) ∨ ∃ a, ShiftsIntoGap s i a := by
  cases i with
  | clearDisplay => exact .inl ((acValid_dd rfl).2 (validDD_of_lt (a := 0) (by decide) fun _ => by decide))
  | returnHome x => exact .inl ((acValid_dd rfl).2 (validDD_of_lt (a := 0) (by decide) fun _ => by decide))
  | shift screen right x =>
    cases hcg : s.addrCg with
    | false => exact .inl (commandEffect_shift_dd h hcg screen right x)
    | true =>
      have hlt : (acAfterCgShift s screen right).toNat < 64 := acAfterCgShift_lt ((acValid_cg hcg).1 h) screen right
      by_cases hgap : s.twoLine = true → (acAfterCgShift s screen right).toNat < 40
      · obtain ⟨hdd, hac, htwo⟩ := commandEffect_shift_cg hcg screen right x
        refine .inl ((acValid_dd hdd).2 ?_)
        rw [hac, htwo]
        exact validDD_of_lt hlt hgap
      · obtain ⟨htwo, hge⟩ := Classical.not_imp.1 hgap
        exact .inr ⟨_, hcg, htwo, screen, right, x, rfl, rfl, by omega, by omega⟩
  | functionSet dl n f x =>
    have hcg' : (commandEffect (.functionSet dl n f x) s).addrCg = s.addrCg := rfl
    refine .inl ?_
    cases hcg : s.addrCg with
    | true =>
      rw [acValid_cg (hcg'.trans hcg)]
      simpa [commandEffect, hcg] using (acValid_cg hcg).1 h
    | false =>
      rw [acValid_dd (hcg'.trans hcg)]
      simpa [commandEffect, hcg] using normDD_valid_of _ n s.ac.toNat _
  | setCgramAddr a =>
    have ha : (a.setWidth 7).toNat < 64 := by rw [BitVec.toNat_setWidth]; omega
    exact .inl ((acValid_cg rfl).2 ha)
  | setDdramAddr a => exact .inl ((acValid_dd rfl).2 (normDD_valid_of _ s.twoLine a.toNat _))
  | _ => exact .inl h

/-- After a Cursor/Display Shift into the gap RefreshRB faults (R168, R301). -/
theorem finish_shiftsIntoGap {s : State} {i : Instr} {a : Addr} (h : ShiftsIntoGap s i a) :
    finish (.next (commandEffect i s)) = .fault (.ddramAddress a.toNat true) := by
  obtain ⟨hcg, htwo, screen, right, x, rfl, ha, hlo, hhi⟩ := h
  obtain ⟨hdd, hac, htwo'⟩ := commandEffect_shift_cg hcg screen right x
  rw [← ha] at hac
  rw [htwo] at htwo'
  have hgap : validDD a.toNat true = false := by simp [validDD]; omega
  have haddr : addressed (commandEffect (.shift screen right x) s) = .error (.ddramAddress a.toNat true) := by
    rw [addressed_of_invalid hdd (by rw [hac, htwo', hgap]), hac, htwo']
  rw [finish, andThen_next, haddr]

/-- From a valid AC an enable edge goes on, or commits a Cursor/Display Shift into the gap. -/
theorem edge_goes_or_shiftsIntoGap {s : State} {rs rw : Bool} {edge : Edge} {o : Res} (h : AcValid s)
    (hd : EdgeDoes s rs rw edge o) : (∃ t, o = .next t) ∨
      (CommitsAt s rs rw edge false ∧ ∃ a, ShiftsIntoGap s (decodeIR (committedByte s)) a) := by
  cases hd with
  | instruction hc =>
    refine (commandEffect_acValid_or (s := commandState s) h (decodeIR (committedByte s))).imp (fun hv => ?_)
      fun hgap => ⟨⟨rfl, rfl, rfl, hc⟩, hgap⟩
    obtain ⟨v, -, ht⟩ := finish_goes hv
    exact ⟨_, ht⟩
  | data =>
    obtain ⟨v, -, ht⟩ := finish_goes (dataEffect_acValid (dataState s) (committedData s))
    exact .inl ⟨_, ht⟩
  | dataFall =>
    obtain ⟨v, -, ht⟩ := finish_goes h
    exact .inl ⟨_, ht⟩
  | dataOffTheMap hc hcg ha =>
    rw [(acValid_dd hcg).1 h] at ha
    cases ha
  | _ => exact .inl ⟨_, rfl⟩

/-- R121, R156: the coming enable edge of a powered block runs the cycle that RS and RW select. -/
theorem step_edge {s : State} {b : Bool} {rest : List AgentStep} (hf : s.fault = none)
    (hi : s.inputs = .host (.setEnable b) :: rest) (hp : s.pwr = true) (he : s.e = !b) :
    step s = exec (decode (.cycle s.rs s.rw (edgeTo b))) { s with inputs := rest, e := b } := by
  rw [step_input hf hi]
  show setEnable b { s with inputs := rest } = _
  simp [setEnable, hp, he]

/-- The coming falling edge that completes a byte of IR runs its instruction and ends (R162). -/
theorem step_commit {s : State} (hf : s.fault = none) (h : ComingWriteEdge s false) : ∃ rest,
    step s = finish (.next (commandEffect (decodeIR (committedByte s))
      { commandState s with inputs := rest, e := false })) := by
  obtain ⟨hi, hp, he, hrs, hrw, hc⟩ := h
  obtain ⟨rest, hi⟩ := List.head?_eq_some_iff.1 hi
  have hselect : decode (.cycle s.rs s.rw (edgeTo false)) = .writeInstruction .falling := by rw [hrs, hrw]; rfl
  refine ⟨rest, ?_⟩
  rw [step_edge hf hi hp he, hselect]
  exact instruction_eq (s := { s with inputs := rest, e := false }) hc

theorem hazard_faults {s : State} {a : Addr} (hf : s.fault = none) (h : Hazard s a) :
    step s = .fault (.ddramAddress a.toNat true) := by
  obtain ⟨hedge, hgap⟩ := (hazard_iff s a).1 h
  obtain ⟨rest, hstep⟩ := step_commit hf hedge
  rw [hstep]
  exact finish_shiftsIntoGap hgap

/-- From the invariant a step goes on, or it is the hazard. -/
theorem step_goes_or_hazard {s : State} {o : Res} (h : Inv s) (hd : StepDoes s o) :
    (∃ t, o = .next t) ∨ ∃ a, Hazard s a := by
  cases hd with
  | edge _ rest b hi hp he =>
    refine (edge_goes_or_shiftsIntoGap (s := { s with inputs := rest, e := b }) h.ac
      (edge_cases _ s.rs s.rw (edgeTo b))).imp id ?_
    rintro ⟨hc, a, hgap⟩
    exact ⟨a, (hazard_iff s a).2 ⟨comingWriteEdge_of_commitsAt hi hp he hc, hgap⟩⟩
  | faulted r hr =>
    rw [h.noFault] at hr
    cases hr
  | powerOn => exact .inl ⟨_, resetBlock_eq _⟩
  | resets => exact .inl ⟨_, resetBlock_eq _⟩
  | _ => exact .inl ⟨_, rfl⟩

/-- Settles O54: the hazard faults, and a step that is not the hazard goes on. -/
theorem onlyTheShiftHazardFaults : Obligations.OnlyTheShiftHazardFaults := by
  intro s h
  have hcases := step_goes_or_hazard h (step_cases s)
  refine ⟨fun a ha => hazard_faults h.noFault ha, fun hnone => ?_, fun r hr => ?_⟩
  · exact hcases.resolve_right fun ⟨a, ha⟩ => hnone a ha
  · obtain ⟨t, ht⟩ | ⟨a, ha⟩ := hcases
    · rw [ht] at hr
      cases hr
    · rw [hazard_faults h.noFault ha] at hr
      exact ⟨a, ha, (Host.Outcome.fault.inj hr).symm⟩

end Proofs
end Sys2Proof
end

section
/-! PROOFS. Where a glyph row comes from (43_rendering.md R268; 20_memory.md R90 to R95), one equation per branch of
`glyphRow`. -/

namespace Sys2Proof
namespace Proofs

open Sys2Proof.Machine Sys2Proof.Safety

theorem glyphRow_cgram {s : State} {k : Byte} (hext : s.extFont = false) (hk : k.toNat < 8) (r : Nat) :
    glyphRow s k r = cgByte s ((k.toNat * 8 + r) % 64) := by
  simp [glyphRow, hext, hk, cgramRead, cgByte, cgramIndex]

theorem glyphRow_extCgram {s : State} {k : Byte} (hext : s.extFont = true)
    (hk : k.toNat < s.cfg.params.extCgThreshold) (r : Nat) :
    glyphRow s k r = cgByte s ((extCgBase s.cfg.params k + r) % 64) := by
  simp [glyphRow, hext, hk, cgramRead, cgByte, cgramIndex]

theorem glyphRow_font {s : State} {k : Byte} (hext : s.extFont = false) (hk : 8 ≤ k.toNat) {r : Nat} (h : r < 16) :
    glyphRow s k r = s.cfg.font.glyphs8[k.toFin][r] := by
  simp [glyphRow, hext, Nat.not_lt.2 hk, fontRow, h]

theorem glyphRow_extFont {s : State} {k : Byte} (hext : s.extFont = true)
    (hk : s.cfg.params.extCgThreshold ≤ k.toNat) {r : Nat} (h : r < 16) :
    glyphRow s k r = s.cfg.font.glyphs11[k.toFin][r] := by
  simp [glyphRow, hext, Nat.not_lt.2 hk, fontRow, h]

/-- The decided base of an extended custom glyph: two codes share its 22 bytes (R91; D20, log 10). -/
theorem extCgBase_decided_of_lt {k : Byte} (hk : k.toNat < 6) : extCgBase decided k = 22 * (k.toNat / 2) := by
  have heven : (k &&& 0b110#8).toNat = 2 * (k.toNat / 2) := by
    rw [BitVec.toNat_and]
    generalize k.toNat = n at hk
    interval_cases n <;> rfl
  rw [extCgBase_decided, heven]
  omega

/-- Settles O45: the branches of `glyphRow`, with the addresses of the decided parameters below 64. -/
theorem glyphRowsComeFromCgramOrFont : Obligations.GlyphRowsComeFromCgramOrFont := by
  intro s k r
  refine ⟨fun hext hr hk => ?_, fun hext hk => glyphRow_extCgram hext hk r, fun hdec hext hr hk => ?_,
    fun hext hk h => glyphRow_font hext hk h, fun hext hk h => glyphRow_extFont hext hk h⟩
  · have hlt : 8 * k.toNat + r < 64 := by omega
    refine ⟨hlt, ?_⟩
    rw [glyphRow_cgram hext hk, Nat.mul_comm, Nat.mod_eq_of_lt hlt]
  · have hlt : 22 * (k.toNat / 2) + r < 64 := by omega
    have hthreshold : k.toNat < s.cfg.params.extCgThreshold := by rw [hdec]; exact hk
    refine ⟨hlt, ?_⟩
    rw [glyphRow_extCgram hext hthreshold, hdec, extCgBase_decided_of_lt hk, Nat.mod_eq_of_lt hlt]

end Proofs
end Sys2Proof
end

section
/-! PROOFS. Construction (70_reset_and_hazards.md R340): one equation per outcome of its checks, and what the rows that
F2 records say of the supply's lists (20_memory.md R94; log 17). -/

namespace Sys2Proof
namespace Proofs

open Sys2Proof.Machine Sys2Proof.Laws

section Construction

variable {f : Config.FontSupply} {cg : Vector Byte 64} {p : Config.Params} {b : Bool}

theorem params_wellFormed_iff : p.wellFormed = true ↔ 1 ≤ p.glyphWidth ∧ p.glyphWidth ≤ 8 := by
  simp [Config.Params.wellFormed]

theorem fits_iff {ext : Bool} : f.fits ext = true ↔ Config.rowsNeeded ext ≤ f.rowsSupplied ext := by
  simp [Config.FontSupply.fits]

theorem construct_badWidth (hp : ¬ p.wellFormed = true) :
    construct f cg p b = .refused (.glyphWidthOutOfRange p.glyphWidth) := by
  simp [construct, hp]

theorem construct_short8 (hp : p.wellFormed = true) (h8 : ¬ f.fits false = true) :
    construct f cg p b = .fault (.fontStoreShape false (f.rowsSupplied false)) := by
  simp [construct, hp, h8, raiseFault]

theorem construct_short11 (hp : p.wellFormed = true) (h8 : f.fits false = true) (h11 : ¬ f.fits true = true) :
    construct f cg p b = .fault (.fontStoreShape true (f.rowsSupplied true)) := by
  simp [construct, hp, h8, h11, raiseFault]

theorem construct_ok (hp : p.wellFormed = true) (h8 : f.fits false = true) (h11 : f.fits true = true) :
    construct f cg p b = .next (State.constructed ⟨fontOfSupply f, cg, p⟩ b) := by
  simp [construct, hp, h8, h11]

/-- The rows counted are bounded by what the glyphs may have. -/
theorem rowsSupplied_le (f : Config.FontSupply) (ext : Bool) : f.rowsSupplied ext ≤ 16 := by
  cases ext with
  | false => exact (min_le_left _ _).trans (glyphRowsSupplied_le _)
  | true => exact (min_le_left _ _).trans (glyphRowsSupplied_le _)

/-- n rows are counted for a font mode exactly when its entries and both overlays have n. -/
theorem le_minRows_iff {n : Nat} (hn : n ≤ 16) (glyphs : List (List Byte)) (cursor blink : List Byte) :
    n ≤ min (Config.glyphRowsSupplied glyphs) (min cursor.length blink.length) ↔
      (n = 0 ∨ 256 ≤ glyphs.length) ∧ (∀ rows ∈ glyphs.take 256, n ≤ rows.length) ∧
        n ≤ cursor.length ∧ n ≤ blink.length := by
  rw [le_min_iff, le_min_iff, le_glyphRowsSupplied hn, and_assoc]

end Construction

/-- Settles O58: the outcomes of `construct`, each under the condition its checks stand for. -/
theorem constructionChecksTheFontStore : Obligations.ConstructionChecksTheFontStore := by
  intro f cg p b
  refine ⟨fun hgw => ?_, fun hgw => construct_badWidth ?_, rowsSupplied_le f false, rowsSupplied_le f true,
    fun n hn => ⟨le_minRows_iff hn f.glyphs8 f.cursor8 f.blink8,
      le_minRows_iff hn f.glyphs11 f.cursor11 f.blink11⟩⟩
  · have hp : p.wellFormed = true := params_wellFormed_iff.2 hgw
    refine ⟨fun h8 => construct_short8 hp ?_, fun h8 h11 => construct_short11 hp (fits_iff.2 h8) ?_,
      fun h8 h11 => construct_ok hp (fits_iff.2 h8) (fits_iff.2 h11)⟩
    · exact fun hfit => Nat.not_le.2 h8 (fits_iff.1 hfit)
    · exact fun hfit => Nat.not_le.2 h11 (fits_iff.1 hfit)
  · rw [params_wellFormed_iff]
    omega

end Proofs
end Sys2Proof
end

section
/-! PROOFS. The two levels of encoding (30_encoding.md R120 to R134). The nine rows of R123 are told apart by the highest
set bit of IR: a mask of the table tests for it, so the table is read once as a choice on that bit, and what decodes to
what follows from the bits of an encoding. -/

namespace Sys2Proof
namespace Proofs

open Sys2Proof.Machine Sys2Proof.Safety Sys2Proof.Laws

/-- Bit k is set and none above it is (R122). -/
def HighestBit {w : Nat} (x : BitVec w) (k : Nat) : Prop :=
  x.getLsbD k = true ∧ ∀ j, k < j → x.getLsbD j = false

theorem highestBit_unique {w : Nat} {x : BitVec w} {j k : Nat} (hj : HighestBit x j) (hk : HighestBit x k) : j = k := by
  rcases lt_trichotomy j k with h | h | h
  · exact absurd hk.1 (by simp [hj.2 k h])
  · exact h
  · exact absurd hj.1 (by simp [hk.2 j h])

theorem highestBit_lt {w : Nat} {x : BitVec w} {k : Nat} (h : HighestBit x k) : k < w := BitVec.lt_of_getLsbD h.1

/-- Every value but 0 has a highest set bit. -/
theorem exists_highestBit {w : Nat} {x : BitVec w} (h : x ≠ 0#w) : ∃ k, HighestBit x k := by
  have hx : x.toNat ≠ 0 := fun h0 => h (BitVec.eq_of_toNat_eq (by simpa using h0))
  refine ⟨x.toNat.log2, Nat.testBit_log2 hx, fun j hj => Nat.testBit_lt_two_pow ?_⟩
  exact Nat.lt_log2_self.trans_le (Nat.pow_le_pow_right (by decide) hj)

/-- Bits appended below leave the highest set bit where it is, counted from above. -/
theorem highestBit_append {m n k : Nat} {x : BitVec m} (h : HighestBit x k) (y : BitVec n) :
    HighestBit (x ++ y) (n + k) := by
  refine ⟨?_, fun j hj => ?_⟩
  · simpa [BitVec.getLsbD_append] using h.1
  · have hn : ¬ j < n := by omega
    simpa [BitVec.getLsbD_append, hn] using h.2 (j - n) (by omega)

theorem highestBit_one {w : Nat} (h : 0 < w) : HighestBit 1#w 0 := by
  refine ⟨by simp [h], fun j hj => ?_⟩
  simp [BitVec.getLsbD_one]
  omega

/-- A mask of R123 keeps the bits from k up. -/
theorem getLsbD_and_mask {w : Nat} (x : BitVec w) (k j : Nat) :
    (x &&& BitVec.allOnes w <<< k).getLsbD j = (x.getLsbD j && decide (k ≤ j)) := by
  cases hj : x.getLsbD j with
  | false => simp only [BitVec.getLsbD_and, hj, Bool.false_and]
  | true =>
    have hjw : j < w := BitVec.lt_of_getLsbD hj
    have hmask : (BitVec.allOnes w <<< k).getLsbD j = decide (k ≤ j) := by
      rw [BitVec.getLsbD_shiftLeft, BitVec.getLsbD_allOnes, Bool.eq_iff_iff]
      simp
      omega
    rw [BitVec.getLsbD_and, hj, hmask]

/-- A (mask, match) pair of R123 tests for the highest set bit. -/
theorem and_mask_eq_twoPow_iff {w : Nat} (x : BitVec w) {k : Nat} (hk : k < w) :
    x &&& BitVec.allOnes w <<< k = BitVec.twoPow w k ↔ HighestBit x k := by
  constructor
  · intro h
    have hbit (j : Nat) : (x.getLsbD j && decide (k ≤ j)) = (decide (k < w) && decide (k = j)) := by
      rw [← getLsbD_and_mask, h, BitVec.getLsbD_twoPow]
    exact ⟨by simpa [hk] using hbit k, fun j hj => by simpa [hj.le, hj.ne] using hbit j⟩
  · intro h
    apply BitVec.eq_of_getLsbD_eq
    intro j _
    rw [getLsbD_and_mask, BitVec.getLsbD_twoPow]
    rcases lt_trichotomy j k with hjk | rfl | hjk
    · simp [hjk, hjk.ne']
    · simp [hk, h.1]
    · simp [hjk.ne, h.2 j hjk]

/-- Bits that a mask finds clear. -/
theorem and_mask_eq_zero_iff {w : Nat} (x : BitVec w) (k : Nat) :
    x &&& BitVec.allOnes w <<< k = 0#w ↔ ∀ j, k ≤ j → x.getLsbD j = false := by
  constructor
  · intro h j hj
    have hbit := getLsbD_and_mask x k j
    simpa [h, hj] using hbit.symm
  · intro h
    apply BitVec.eq_of_getLsbD_eq
    intro j _
    rw [getLsbD_and_mask]
    cases hj : decide (k ≤ j) with
    | false => simp
    | true => simp [h j (by simpa using hj)]

/-- The row of R123 for each highest set bit: the handler it names, on the fields of IR below that bit. -/
def handlerAt {α : Type} (h : IRHandlers α) (b : Byte) : Nat → α
  | 7 => h.setDdramAddr (b.extractLsb' 0 7)
  | 6 => h.setCgramAddr (b.extractLsb' 0 6)
  | 5 => h.functionSet (b.getLsbD 4) (b.getLsbD 3) (b.getLsbD 2) (b.extractLsb' 0 2)
  | 4 => h.shift (b.getLsbD 3) (b.getLsbD 2) (b.extractLsb' 0 2)
  | 3 => h.displayControl (b.getLsbD 2) (b.getLsbD 1) (b.getLsbD 0)
  | 2 => h.entryModeSet (b.getLsbD 1) (b.getLsbD 0)
  | 1 => h.returnHome (b.extractLsb' 0 1)
  | 0 => h.clearDisplay
  | _ => h.nopZero

/-- R123: the first test of the table that IR meets is the one for its highest set bit. -/
theorem selectIR_of_highestBit {α : Type} {b : Byte} {k : Nat} (hb : HighestBit b k) (h : IRHandlers α) :
    selectIR b h = handlerAt h b k := by
  have htest (j : Nat) (hj : j < 8) : b &&& BitVec.allOnes 8 <<< j = BitVec.twoPow 8 j ↔ j = k :=
    (and_mask_eq_twoPow_iff b hj).trans ⟨fun hbj => highestBit_unique hbj hb, fun hjk => hjk ▸ hb⟩
  have h7 : b &&& 0x80#8 = 0x80#8 ↔ 7 = k := htest 7 (by decide)
  have h6 : b &&& 0xC0#8 = 0x40#8 ↔ 6 = k := htest 6 (by decide)
  have h5 : b &&& 0xE0#8 = 0x20#8 ↔ 5 = k := htest 5 (by decide)
  have h4 : b &&& 0xF0#8 = 0x10#8 ↔ 4 = k := htest 4 (by decide)
  have h3 : b &&& 0xF8#8 = 0x08#8 ↔ 3 = k := htest 3 (by decide)
  have h2 : b &&& 0xFC#8 = 0x04#8 ↔ 2 = k := htest 2 (by decide)
  have h1 : b &&& 0xFE#8 = 0x02#8 ↔ 1 = k := htest 1 (by decide)
  have hall : b &&& BitVec.allOnes 8 <<< 0 = b := BitVec.and_allOnes
  have h0 : b = 0x01#8 ↔ 0 = k := (Eq.congr_left hall).symm.trans (htest 0 (by decide))
  have hk : k < 8 := highestBit_lt hb
  unfold selectIR
  simp only [h7, h6, h5, h4, h3, h2, h1, h0]
  interval_cases k <;> rfl

theorem decodeIR_of_highestBit {b : Byte} {k : Nat} (hb : HighestBit b k) : decodeIR b = handlerAt instrHandlers b k :=
  selectIR_of_highestBit hb instrHandlers

/-- Settles O3: the instruction of row k has opcode bit k. -/
theorem highestSetBitIsTheOpcode : Obligations.HighestSetBitIsTheOpcode := by
  refine ⟨fun b k hset hclear => ?_, rfl⟩
  have hb : HighestBit b k := ⟨hset, hclear⟩
  have hk : k < 8 := highestBit_lt hb
  rw [decodeIR_of_highestBit hb]
  interval_cases k <;> rfl

/-- The fields of an encoding, seen from above: a flag or a number appended is read back, and moves the rest up. -/
theorem getLsbD_append_flag {m : Nat} (p : BitVec m) (f : Bool) : (p ++ BitVec.ofBool f).getLsbD 0 = f := by
  rw [BitVec.getLsbD_append, if_pos Nat.one_pos]
  cases f <;> rfl

theorem getLsbD_append_add {m n : Nat} (p : BitVec m) (x : BitVec n) (j : Nat) :
    (p ++ x).getLsbD (n + j) = p.getLsbD j := by
  simp [BitVec.getLsbD_append]

theorem decodeIR_clearDisplay : decodeIR 0b00000001#8 = .clearDisplay := rfl

theorem decodeIR_nopZero : decodeIR 0b00000000#8 = .nopZero := rfl

theorem decodeIR_returnHome (x : BitVec 1) : decodeIR (0b0000001#7 ++ x) = .returnHome x :=
  (decodeIR_of_highestBit (highestBit_append (highestBit_one (by decide)) x)).trans
    (congrArg Instr.returnHome BitVec.extractLsb'_append_eq_right)

theorem decodeIR_setCgramAddr (a : BitVec 6) : decodeIR (0b01#2 ++ a) = .setCgramAddr a :=
  (decodeIR_of_highestBit (highestBit_append (highestBit_one (by decide)) a)).trans
    (congrArg Instr.setCgramAddr BitVec.extractLsb'_append_eq_right)

theorem decodeIR_setDdramAddr (a : BitVec 7) : decodeIR (0b1#1 ++ a) = .setDdramAddr a :=
  (decodeIR_of_highestBit (highestBit_append (highestBit_one (by decide)) a)).trans
    (congrArg Instr.setDdramAddr BitVec.extractLsb'_append_eq_right)

theorem decodeIR_entryModeSet (i h : Bool) :
    decodeIR (0b000001#6 ++ BitVec.ofBool i ++ BitVec.ofBool h) = .entryModeSet i h := by
  have hb : HighestBit (0b000001#6 ++ BitVec.ofBool i ++ BitVec.ofBool h) 2 :=
    highestBit_append (highestBit_append (highestBit_one (by decide)) _) _
  refine (decodeIR_of_highestBit hb).trans ((Instr.entryModeSet.injEq ..).mpr ⟨?_, ?_⟩)
  · exact (getLsbD_append_add _ _ 0).trans (getLsbD_append_flag _ i)
  · exact getLsbD_append_flag _ h

theorem decodeIR_displayControl (d c bl : Bool) :
    decodeIR (0b00001#5 ++ BitVec.ofBool d ++ BitVec.ofBool c ++ BitVec.ofBool bl) = .displayControl d c bl := by
  have hb : HighestBit (0b00001#5 ++ BitVec.ofBool d ++ BitVec.ofBool c ++ BitVec.ofBool bl) 3 :=
    highestBit_append (highestBit_append (highestBit_append (highestBit_one (by decide)) _) _) _
  refine (decodeIR_of_highestBit hb).trans ((Instr.displayControl.injEq ..).mpr ⟨?_, ?_, ?_⟩)
  · exact (getLsbD_append_add _ _ 1).trans ((getLsbD_append_add _ _ 0).trans (getLsbD_append_flag _ d))
  · exact (getLsbD_append_add _ _ 0).trans (getLsbD_append_flag _ c)
  · exact getLsbD_append_flag _ bl

theorem decodeIR_shift (sc rl : Bool) (x : BitVec 2) :
    decodeIR (0b0001#4 ++ BitVec.ofBool sc ++ BitVec.ofBool rl ++ x) = .shift sc rl x := by
  have hb : HighestBit (0b0001#4 ++ BitVec.ofBool sc ++ BitVec.ofBool rl ++ x) 4 :=
    highestBit_append (highestBit_append (highestBit_append (highestBit_one (by decide)) _) _) _
  refine (decodeIR_of_highestBit hb).trans ((Instr.shift.injEq ..).mpr ⟨?_, ?_, ?_⟩)
  · exact (getLsbD_append_add _ _ 1).trans ((getLsbD_append_add _ _ 0).trans (getLsbD_append_flag _ sc))
  · exact (getLsbD_append_add _ _ 0).trans (getLsbD_append_flag _ rl)
  · exact BitVec.extractLsb'_append_eq_right

theorem decodeIR_functionSet (dl n f : Bool) (x : BitVec 2) :
    decodeIR (0b001#3 ++ BitVec.ofBool dl ++ BitVec.ofBool n ++ BitVec.ofBool f ++ x) = .functionSet dl n f x := by
  have hb : HighestBit (0b001#3 ++ BitVec.ofBool dl ++ BitVec.ofBool n ++ BitVec.ofBool f ++ x) 5 :=
    highestBit_append (highestBit_append (highestBit_append (highestBit_append (highestBit_one (by decide)) _) _) _) _
  refine (decodeIR_of_highestBit hb).trans ((Instr.functionSet.injEq ..).mpr ⟨?_, ?_, ?_, ?_⟩)
  · exact (getLsbD_append_add _ _ 2).trans ((getLsbD_append_add _ _ 1).trans
      ((getLsbD_append_add _ _ 0).trans (getLsbD_append_flag _ dl)))
  · exact (getLsbD_append_add _ _ 1).trans ((getLsbD_append_add _ _ 0).trans (getLsbD_append_flag _ n))
  · exact (getLsbD_append_add _ _ 0).trans (getLsbD_append_flag _ f)
  · exact BitVec.extractLsb'_append_eq_right

theorem decode_encode (i : Instr) : decode (encode i) = i := by
  cases i with
  | writeInstruction edge => rfl
  | readBfAc edge => rfl
  | writeData edge => rfl
  | readData edge => rfl
  | nopZero => exact decodeIR_nopZero
  | clearDisplay => exact decodeIR_clearDisplay
  | returnHome x => exact decodeIR_returnHome x
  | entryModeSet i h => exact decodeIR_entryModeSet i h
  | displayControl d c bl => exact decodeIR_displayControl d c bl
  | shift sc rl x => exact decodeIR_shift sc rl x
  | functionSet dl n f x => exact decodeIR_functionSet dl n f x
  | setCgramAddr a => exact decodeIR_setCgramAddr a
  | setDdramAddr a => exact decodeIR_setDdramAddr a

theorem ofBool_getLsbD_eq {w : Nat} (b : BitVec w) (k : Nat) : BitVec.ofBool (b.getLsbD k) = b.extractLsb' k 1 := by
  apply BitVec.eq_of_getLsbD_eq
  intro j hj
  have hj0 : j = 0 := by omega
  subst hj0
  simp

theorem extractLsb'_of_highestBit {w k : Nat} {b : BitVec w} (hb : HighestBit b k) (m : Nat) :
    b.extractLsb' k m = 1#m := by
  apply BitVec.eq_of_getLsbD_eq
  intro j hj
  cases j with
  | zero => simp [hj, hb.1]
  | succ j => simp [hj, hb.2 (k + (j + 1)) (by omega)]

/-- The fields of R124 to R131 are the whole byte: the encoding of a row puts them back in their places. -/
theorem encode_decodeIR_of_highestBit {b : Byte} {k : Nat} (hb : HighestBit b k) : encode (decodeIR b) = .ir b := by
  have hk : k < 8 := highestBit_lt hb
  have hprefix (m : Nat) : 1#m = b.extractLsb' k m := (extractLsb'_of_highestBit hb m).symm
  have hwhole : b.extractLsb' 0 8 = b := BitVec.extractLsb'_eq_self
  rw [decodeIR_of_highestBit hb]
  interval_cases k <;>
    simp only [handlerAt, instrHandlers, encode, Code.ir.injEq, ofBool_getLsbD_eq, hprefix,
      BitVec.extractLsb'_append_extractLsb'_eq_extractLsb'] <;> exact hwhole

theorem encode_decodeIR (b : Byte) : encode (decodeIR b) = .ir b := by
  by_cases h0 : b = 0#8
  · rw [h0]
    rfl
  · obtain ⟨k, hb⟩ := exists_highestBit h0
    exact encode_decodeIR_of_highestBit hb

theorem encode_decode (c : Code) : encode (decode c) = c := by
  cases c with
  | ir b => exact encode_decodeIR b
  | cycle rs rw edge => cases rs <;> cases rw <;> rfl

/-- Settles O1: the rows of the table read back their own fields, and the fields of a row make up the whole byte. -/
theorem decodeEncodeAgree : Obligations.DecodeEncodeAgree :=
  ⟨decode_encode, encode_decode⟩

/-- Settles O2: the words are encodings, written out. -/
theorem sampleWordsDecode : Obligations.SampleWordsDecode := by
  unfold Obligations.SampleWordsDecode
  decide

/-- Changing bits below the highest set bit leaves it the highest. -/
theorem highestBit_xor {w k n : Nat} {x m : BitVec w} (hx : HighestBit x k) (hm : ∀ j, n ≤ j → m.getLsbD j = false)
    (hn : n ≤ k) : HighestBit (x ^^^ m) k := by
  refine ⟨?_, fun j hj => ?_⟩
  · simpa [hm k hn] using hx.1
  · simpa [hm j (by omega)] using hx.2 j hj

theorem getLsbD_xor_of_clear {w n j : Nat} {x m : BitVec w} (hm : ∀ j, n ≤ j → m.getLsbD j = false) (hj : n ≤ j) :
    (x ^^^ m).getLsbD j = x.getLsbD j := by
  rw [BitVec.getLsbD_xor, hm j hj, Bool.xor_false]

/-- Settles O4: the bits changed are below the highest set bit and below every field that the instruction reads. -/
theorem dontCareBitsAreIgnored : Obligations.DontCareBitsAreIgnored := by
  rintro b m s (⟨hb, hm⟩ | ⟨hb, hm⟩ | ⟨hb, hm⟩)
  · have hb : HighestBit b 1 := (and_mask_eq_twoPow_iff b (by decide)).1 hb
    have hm := (and_mask_eq_zero_iff m 1).1 hm
    rw [decodeIR_of_highestBit hb, decodeIR_of_highestBit (highestBit_xor hb hm (by decide))]
    rfl
  · have hb : HighestBit b 4 := (and_mask_eq_twoPow_iff b (by decide)).1 hb
    have hm := (and_mask_eq_zero_iff m 2).1 hm
    rw [decodeIR_of_highestBit hb, decodeIR_of_highestBit (highestBit_xor hb hm (by decide))]
    simp only [handlerAt, getLsbD_xor_of_clear hm, Nat.reduceLeDiff]
    rfl
  · have hb : HighestBit b 5 := (and_mask_eq_twoPow_iff b (by decide)).1 hb
    have hm := (and_mask_eq_zero_iff m 2).1 hm
    rw [decodeIR_of_highestBit hb, decodeIR_of_highestBit (highestBit_xor hb hm (by decide))]
    simp only [handlerAt, getLsbD_xor_of_clear hm, Nat.reduceLeDiff]
    rfl

end Proofs
end Sys2Proof
end

section
/-! PROOFS. What the next step runs (40_bus_cycles.md R156; log 13), and that no outcome is a refusal (30_encoding.md
R134, R140). -/

namespace Sys2Proof
namespace Proofs

open Sys2Proof.Machine Sys2Proof.Safety Sys2Proof.Laws

/-- Settles O5: the edge that SetEnable makes runs the selected cycle. -/
theorem edgeRunsTheSelectedCycle : Obligations.EdgeRunsTheSelectedCycle :=
  fun _ _ _ hf hi hp he => step_edge hf hi hp he

@[simp] theorem hiNibble_joinNibbles (hi lo : BitVec 4) : hiNibble (joinNibbles hi lo) = hi :=
  BitVec.extractLsb'_append_eq_left

@[simp] theorem loNibble_joinNibbles (hi lo : BitVec 4) : loNibble (joinNibbles hi lo) = lo :=
  BitVec.extractLsb'_append_eq_right

@[simp] theorem hiNibble_onHighLane (n : BitVec 4) : hiNibble (onHighLane n) = n :=
  BitVec.extractLsb'_append_eq_left

@[simp] theorem joinNibbles_hiNibble_loNibble (b : Byte) : joinNibbles (hiNibble b) (loNibble b) = b :=
  (BitVec.extractLsb'_append_extractLsb'_eq_extractLsb' rfl).trans BitVec.extractLsb'_eq_self

/-- A table word of 2 bits is the bus cycle that its two bits select, at the edge at which it first acts (log 13). -/
theorem codeOfTableWord_pins (rs rw : Bool) :
    codeOfTableWord 2 (2 * rs.toNat + rw.toNat) = .cycle rs rw (actingEdge rw) := by
  cases rs <;> cases rw <;> rfl

/-- The next step of a state armed with a bus cycle is that cycle. -/
theorem step_armCycle (s : State) (rs rw : Bool) (edge : Edge) : step (armCycle s rs rw edge) =
    exec (decode (.cycle rs rw edge))
      { s with rs := rs, rw := rw, pwr := true, e := edge = .rising, fault := none } := by
  have hedge : edgeTo (edge = .rising) = edge := by cases edge <;> rfl
  have he : (armCycle s rs rw edge).e = !decide (edge = .rising) := by cases edge <;> rfl
  rw [step_edge (s := armCycle s rs rw edge) rfl rfl rfl he, hedge]
  rfl

/-- The state in which the edge of an armed byte runs, for what IR, DB and NIB_PEND hold. -/
def armedEdge (s : State) (ir db : Byte) (nibPend : Bool) : State :=
  { s with rs := false, rw := false, pwr := true, e := false, fault := none, ir := ir, db := db, nibPend := nibPend }

/-- Arming a byte chooses IR, DB and NIB_PEND so that the edge commits that byte, in either bus width. -/
theorem armByte_eq (s : State) (b : Byte) : ∃ ir db nibPend,
    armByte s b = { armCycle s false false .falling with ir := ir, db := db, nibPend := nibPend } ∧
      completesByte (armedEdge s ir db nibPend) = true ∧ committedByte (armedEdge s ir db nibPend) = b := by
  cases hf : s.fourBit with
  | false =>
    have harm : armByte s b = { armCycle s false false .falling with db := b } := if_neg (by simp [armCycle, hf])
    exact ⟨s.ir, b, s.nibPend, harm, by simp [completesByte, armedEdge, hf], by simp [committedByte, armedEdge, hf]⟩
  | true =>
    have harm : armByte s b = { armCycle s false false .falling with
        ir := joinNibbles (hiNibble b) (loNibble s.ir), nibPend := true, db := onHighLane (loNibble b) } := if_pos hf
    exact ⟨_, _, true, harm, by simp [completesByte, armedEdge], by simp [committedByte, armedEdge, hf]⟩

/-- Settles O7: the word placed is armed as its code, and the step takes the edge that was armed. -/
theorem fetchedWordRunsNext : Obligations.FetchedWordRunsNext := by
  refine ⟨fun s w => ?_, fun s rs rw => ?_⟩
  · obtain ⟨ir, db, nibPend, harm, hcomplete, hbyte⟩ := armByte_eq s (BitVec.ofNat 8 w)
    refine ⟨armedEdge s ir db nibPend, hcomplete, hbyte, ?_, rfl⟩
    show step (armByte s (BitVec.ofNat 8 w)) = _
    rw [harm]
    exact step_edge (b := false) rfl rfl rfl rfl
  · refine ⟨_, ?_, rfl⟩
    have harm : s.withFetchWord 2 (2 * rs.toNat + rw.toNat) = armCycle s rs rw (actingEdge rw) := by
      rw [State.withFetchWord, codeOfTableWord_pins]
      rfl
    rw [harm, step_armCycle]
    cases rw <;> rfl

theorem edge_ne_refused {s : State} {rs rw : Bool} {edge : Edge} {o : Res} (hd : EdgeDoes s rs rw edge o)
    (r : Refusal) : o ≠ .refused r := by
  cases hd with
  | dataFall => exact finish_ne_refused _ r
  | instruction => exact finish_ne_refused _ r
  | data => exact finish_ne_refused _ r
  | _ => nofun

theorem step_ne_refused {s : State} {o : Res} (hd : StepDoes s o) (r : Refusal) : o ≠ .refused r := by
  cases hd with
  | edge => exact edge_ne_refused (edge_cases ..) r
  | powerOn => rw [resetBlock_eq]; nofun
  | resets => rw [resetBlock_eq]; nofun
  | _ => nofun

/-- A bus cycle is what its pins decode to. -/
theorem isCommand_or_cycle (i : Instr) : i.isCommand = true ∨ ∃ rs rw edge, decode (.cycle rs rw edge) = i := by
  cases i with
  | writeInstruction edge => exact .inr ⟨false, false, edge, rfl⟩
  | readBfAc edge => exact .inr ⟨false, true, edge, rfl⟩
  | writeData edge => exact .inr ⟨true, false, edge, rfl⟩
  | readData edge => exact .inr ⟨true, true, edge, rfl⟩
  | _ => exact .inl rfl

theorem exec_ne_refused (i : Instr) (s : State) (r : Refusal) : exec i s ≠ .refused r := by
  rcases isCommand_or_cycle i with hi | ⟨rs, rw, edge, rfl⟩
  · rw [exec_command hi]
    nofun
  · exact edge_ne_refused (edge_cases s rs rw edge) r

/-- Settles O11: an instruction of IR goes on, and of the other outcomes none is a refusal. -/
theorem nothingIsRefused : Obligations.NothingIsRefused :=
  ⟨exec_ne_refused, fun s r => step_ne_refused (step_cases s) r⟩

end Proofs
end Sys2Proof
end

section
/-! PROOFS. Normalization by cases (42_address_counter.md R230, R236) and one step of a valid address (R231): what the
value masked to 7 bits is decides, and the clauses about AC are read off. -/

namespace Sys2Proof
namespace Proofs

open Sys2Proof.Machine Sys2Proof.Safety Sys2Proof.Laws

section Normalization

variable {cmp : ClampCmp} {two : Bool} {v : Int} {m : Nat}

theorem clampDD_of_mask (hv : v % 128 = m) : clampDD cmp two v =
    if m = 127 then topAddr two else if aboveTop cmp m (topAddr two) then 0 else m := by
  simp only [clampDD, hv, Int.toNat_natCast]

theorem aboveTop_iff {top : Nat} : aboveTop cmp m top = true ↔ top < m ∨ (cmp = .ge ∧ m = top) := by
  cases cmp <;> simp [aboveTop]
  omega

theorem deflectGap_of_valid (h : validDD m two = true) (dir : Dir) : deflectGap two m dir = m := by
  rw [validDD_iff] at h
  unfold deflectGap
  rw [if_neg]
  cases two <;> simp at h ⊢
  omega

theorem deflectGap_of_gap (hlo : 40 ≤ m) (hhi : m ≤ 63) (dir : Dir) :
    deflectGap true m dir = if dir = .inc then 64 else 39 := by
  unfold deflectGap
  rw [if_pos (by simp [hlo, hhi])]
  cases dir <;> rfl

theorem validDD_zero (two : Bool) : validDD (0 : Nat) two = true := by cases two <;> rfl

theorem validDD_topAddr (two : Bool) : validDD (topAddr two) two = true := by cases two <;> rfl

theorem le_topAddr_of_valid (h : validDD m two = true) : m ≤ topAddr two := by
  rw [validDD_iff] at h
  cases two <;> simp [topAddr] at h ⊢ <;> omega

/-- R230: 127 snaps to TOP. -/
theorem normDD_of_127 (hv : v % 128 = 127) (dir : Dir) : (normDD cmp two v dir).toNat = topAddr two := by
  rw [normDD_toNat, clampDD_of_mask (m := 127) hv, if_pos rfl, deflectGap_of_valid (validDD_topAddr two)]

/-- R230, R236: a value above TOP snaps to 0, and with GE one at TOP already. -/
theorem normDD_of_above (hv : v % 128 = m) (h127 : m ≠ 127) (habove : aboveTop cmp m (topAddr two) = true) (dir : Dir) :
    (normDD cmp two v dir).toNat = 0 := by
  rw [normDD_toNat, clampDD_of_mask hv, if_neg h127, if_pos habove, deflectGap_of_valid (validDD_zero two)]

theorem clampDD_of_le (hv : v % 128 = m) (hle : m ≤ topAddr two) (htop : cmp = .gt ∨ m ≠ topAddr two) :
    clampDD cmp two v = m := by
  have hle' : topAddr two ≤ 103 := topAddr_le two
  rw [clampDD_of_mask hv, if_neg (by omega), if_neg]
  rw [aboveTop_iff]
  rintro (h | ⟨rfl, h⟩)
  · omega
  · exact htop.elim nofun fun hne => hne h

/-- R230: a valid address is kept, but for TOP with GE (R236). -/
theorem normDD_of_valid (hv : v % 128 = m) (h : validDD m two = true) (htop : cmp = .gt ∨ m ≠ topAddr two) (dir : Dir) :
    (normDD cmp two v dir).toNat = m := by
  rw [normDD_toNat, clampDD_of_le hv (le_topAddr_of_valid h) htop, deflectGap_of_valid h]

/-- R230: a value in the two-line gap is deflected by direction. -/
theorem normDD_of_gap (hv : v % 128 = m) (hlo : 40 ≤ m) (hhi : m ≤ 63) (dir : Dir) :
    (normDD cmp true v dir).toNat = if dir = .inc then 64 else 39 := by
  have hle : m < topAddr true := by simp [topAddr]; omega
  rw [normDD_toNat, clampDD_of_le hv hle.le (.inr hle.ne), deflectGap_of_gap hlo hhi]

end Normalization

/-- R231, R87: from a valid address one step up is the neighbour above, with either reading of CLAMP_CMP (R236). -/
theorem stepDD_inc (cmp : ClampCmp) {two : Bool} {ac : Addr} (h : validDD ac.toNat two = true) :
    (stepDD cmp two ac .inc).toNat = neighbour cmp two ac.toNat .inc := by
  have hle : ac.toNat ≤ topAddr two := le_topAddr_of_valid h
  have htop : topAddr two ≤ 103 := topAddr_le two
  have hmask : ((ac.toNat : Int) + delta .inc) % 128 = (ac.toNat + 1 : Nat) := by simp only [delta]; omega
  unfold stepDD neighbour
  simp only
  split_ifs with hgap habove
  · simp only [Bool.and_eq_true, decide_eq_true_eq] at hgap
    obtain ⟨rfl, hac⟩ := hgap
    exact normDD_of_gap hmask (by omega) (by omega) .inc
  · simp only [Bool.or_eq_true, Bool.and_eq_true, decide_eq_true_eq] at habove
    refine normDD_of_above hmask (by omega) (aboveTop_iff.2 ?_) .inc
    exact habove.imp (fun hac => by omega) id
  · simp only [Bool.or_eq_true, Bool.and_eq_true, decide_eq_true_eq] at hgap habove
    have hvalid : validDD (ac.toNat + 1 : Nat) two = true := by
      rw [validDD_iff] at h ⊢
      cases two <;> simp [topAddr] at h hgap habove ⊢ <;> omega
    refine normDD_of_valid hmask hvalid ?_ .inc
    cases cmp with
    | gt => exact .inl rfl
    | ge => exact .inr fun hac => habove (.inr ⟨rfl, hac⟩)

/-- R231, R87: one step down is the neighbour below, TOP below 0. -/
theorem stepDD_dec (cmp : ClampCmp) {two : Bool} {ac : Addr} (h : validDD ac.toNat two = true) :
    (stepDD cmp two ac .dec).toNat = neighbour cmp two ac.toNat .dec := by
  have hle : ac.toNat ≤ topAddr two := le_topAddr_of_valid h
  have htop : topAddr two ≤ 103 := topAddr_le two
  have hmask (h0 : ac.toNat ≠ 0) : ((ac.toNat : Int) + delta .dec) % 128 = (ac.toNat - 1 : Nat) := by
    simp only [delta]; omega
  unfold stepDD neighbour
  simp only
  split_ifs with hgap h0
  · simp only [Bool.and_eq_true, decide_eq_true_eq] at hgap
    obtain ⟨rfl, hac⟩ := hgap
    exact normDD_of_gap (hmask (by omega)) (by omega) (by omega) .dec
  · exact normDD_of_127 (by simp [h0, delta]) .dec
  · have hvalid : validDD (ac.toNat - 1 : Nat) two = true := by
      rw [validDD_iff] at h ⊢
      cases two <;> simp at h hgap ⊢ <;> omega
    exact normDD_of_valid (hmask h0) hvalid (.inr (by omega)) .dec

theorem stepDD_eq_neighbour (cmp : ClampCmp) {two : Bool} {ac : Addr} (h : validDD ac.toNat two = true) (dir : Dir) :
    (stepDD cmp two ac dir).toNat = neighbour cmp two ac.toNat dir := by
  cases dir with
  | inc => exact stepDD_inc cmp h
  | dec => exact stepDD_dec cmp h

theorem advanceAC_ac_cg {s : State} (hcg : s.addrCg = true) (dir : Dir) :
    ((advanceAC s dir).ac.toNat : Int) = (s.ac.toNat + delta dir) % 64 := by
  have hac : (advanceAC s dir).ac = stepCg s.ac dir := if_pos hcg
  rw [hac, stepCg_toNat]
  exact Int.toNat_of_nonneg (Int.emod_nonneg _ (by decide))

theorem advanceAC_ac_dd {s : State} (hcg : s.addrCg = false) (h : validDD s.ac.toNat s.twoLine = true) (dir : Dir) :
    (advanceAC s dir).ac.toNat = neighbour s.cfg.params.clampCmp s.twoLine s.ac.toNat dir := by
  have hac : (advanceAC s dir).ac = stepDD s.cfg.params.clampCmp s.twoLine s.ac dir := if_neg (by simp [hcg])
  rw [hac, stepDD_eq_neighbour _ h]

/-- R234, its two tests one after the other. -/
theorem shiftBy_eq (lw : Nat) (shift d : Int) :
    shiftBy lw shift d = if shift + d = lw then 0 else if shift + d = -(lw : Int) then 0 else shift + d := by
  unfold shiftBy
  by_cases h : shift + d = lw <;> simp [h]

end Proofs
end Sys2Proof
end

section
/-! PROOFS. What single instructions of IR do (41_instructions.md R193 to R199) and what the edge that commits them
leaves (40_bus_cycles.md R162). -/

namespace Sys2Proof
namespace Proofs

open Sys2Proof.Machine Sys2Proof.Safety Sys2Proof.Laws

/-- The edge that commits a byte whose instruction leaves no DDRAM address off the map ends as R162 says. -/
theorem commitLeaves_ends {s u : State} {b : Byte} (hu : commandEffect (decodeIR b) (commandState s) = u)
    (hac : u.addrCg = false → validDD u.ac.toNat u.twoLine = true) : CommitLeaves s b (CommitEnds u) := by
  obtain ⟨v, hv⟩ := addressed_ok hac
  exact commitLeaves_of ⟨u, v, hu ▸ exec_decodeIR b (commandState s), hv, endState_ends hv⟩

/-- Where an instruction keeps AC and its addressing, the AC found decides. -/
theorem commitLeaves_ends_of_acValid {s u : State} {b : Byte} (h : AcValid s)
    (hu : commandEffect (decodeIR b) (commandState s) = u) (hcg : u.addrCg = s.addrCg) (hac : u.ac = s.ac)
    (htwo : u.twoLine = s.twoLine) : CommitLeaves s b (CommitEnds u) :=
  commitLeaves_ends hu fun hdd => (acValid_dd hdd).1 ((acValid_congr hcg hac htwo).2 h)

/-- Settles O22: the instruction is the identity, and keeps AC. -/
theorem nopZeroChangesNothing : Obligations.NopZeroChangesNothing :=
  fun _ => ⟨rfl, fun h => commitLeaves_ends_of_acValid h rfl rfl rfl rfl⟩

/-- The row of R126 in the table. -/
theorem decodeIR_entryModeSet_row {b : Byte} (h : b &&& 0xFC#8 = 0x04#8) :
    decodeIR b = .entryModeSet (b.getLsbD 1) (b.getLsbD 0) :=
  decodeIR_of_highestBit (k := 2) ((and_mask_eq_twoPow_iff b (by decide)).1 h)

/-- The row of R127 in the table. -/
theorem decodeIR_displayControl_row {b : Byte} (h : b &&& 0xF8#8 = 0x08#8) :
    decodeIR b = .displayControl (b.getLsbD 2) (b.getLsbD 1) (b.getLsbD 0) :=
  decodeIR_of_highestBit (k := 3) ((and_mask_eq_twoPow_iff b (by decide)).1 h)

/-- Settles O25: the effect writes the two flags, which the row reads from the byte. -/
theorem entryModeSetWritesItsTwoFlags : Obligations.EntryModeSetWritesItsTwoFlags := by
  refine fun s i h => ⟨rfl, fun b hb hac => ?_⟩
  exact commitLeaves_ends_of_acValid hac (by rw [decodeIR_entryModeSet_row hb]; rfl) rfl rfl rfl

/-- Settles O26: the effect writes the three flags, which the row reads from the byte. -/
theorem displayControlWritesItsThreeFlags : Obligations.DisplayControlWritesItsThreeFlags := by
  refine fun s d c bl => ⟨rfl, fun b hb hac => ?_⟩
  exact commitLeaves_ends_of_acValid hac (by rw [decodeIR_displayControl_row hb]; rfl) rfl rfl rfl

theorem delta_dirOf (right : Bool) : delta (dirOf right) = if right then 1 else -1 := by cases right <;> rfl

/-- Settles O27: the screen form moves SHIFT by R234, the cursor form AC by R231, and both leave DDRAM addressed. -/
theorem shiftMovesDisplayOrCursor : Obligations.ShiftMovesDisplayOrCursor := by
  intro s right x
  refine ⟨⟨_, exec_command rfl s, rfl, ?_⟩, ⟨_, exec_command rfl s, rfl, fun hcg => ?_, fun hcg hvalid => ?_⟩⟩
  · cases right with
    | true => exact shiftBy_eq s.lw s.shift 1
    | false => exact shiftBy_eq s.lw s.shift (-1)
  · exact (advanceAC_ac_cg hcg _).trans (by rw [delta_dirOf])
  · exact advanceAC_ac_dd hcg hvalid (dirOf right)

/-- R233: while DDRAM is addressed FUNCTION_SET renormalizes AC, under the new line count. -/
theorem functionSet_ac {s : State} (hcg : s.addrCg = false) (dl n f : Bool) (x : BitVec 2) :
    (commandEffect (.functionSet dl n f x) s).ac =
      normDD s.cfg.params.clampCmp n s.ac.toNat (loadDir s.cfg.params s.ac s.ac) :=
  if_neg (by simp [hcg])

/-- The edge that commits FUNCTION_SET never faults: a CGRAM address is readable, and a DDRAM address is renormalized. -/
theorem functionSet_commits {s : State} {b : Byte} {dl n f : Bool} {x : BitVec 2}
    (hb : decodeIR b = .functionSet dl n f x) :
    CommitLeaves s b (CommitEnds (commandEffect (.functionSet dl n f x) (commandState s))) := by
  refine commitLeaves_ends (by rw [hb]) fun hcg => ?_
  rw [functionSet_ac (s := commandState s) hcg]
  exact normDD_valid_of ..

/-- The decided LOAD_DIR of a renormalization is dec (R233). -/
theorem loadDir_decided_self (a : Addr) : loadDir decided a a = .dec :=
  (loadDir_decided a a).trans (if_neg (BitVec.lt_irrefl a))

/-- Settles O28: the clauses about AC are the cases of R230, applied to AC itself. -/
theorem functionSetRenormalizes : Obligations.FunctionSetRenormalizes := by
  intro s dl n f x
  refine ⟨_, exec_command rfl s, rfl, fun hcg => if_pos hcg, fun hcg => ?_, fun b hb hcomplete hbyte => ?_⟩
  · have hmask : (s.ac.toNat : Int) % 128 = s.ac.toNat := by omega
    have htop_le : topAddr n ≤ 103 := topAddr_le n
    rw [functionSet_ac hcg]
    refine ⟨fun hvalid htop => ?_, fun hge htop => ?_, fun htwo hlo hhi => ?_, fun h127 => ?_, fun h127 habove => ?_⟩
    · exact BitVec.eq_of_toNat_eq (normDD_of_valid hmask hvalid htop _)
    · exact BitVec.eq_of_toNat_eq (normDD_of_above hmask (by omega) (aboveTop_iff.2 (.inr ⟨hge, htop⟩)) _)
    · subst htwo
      have hgap := normDD_of_gap (cmp := s.cfg.params.clampCmp) hmask hlo hhi (loadDir s.cfg.params s.ac s.ac)
      refine ⟨hgap, fun hdecided => hgap.trans (if_neg ?_)⟩
      rw [hdecided, loadDir_decided_self]
      nofun
    · exact normDD_of_127 (by omega) _
    · exact normDD_of_above hmask h127 (aboveTop_iff.2 (.inl habove)) _
  · obtain ⟨t, ht, hends⟩ := functionSet_commits hb hcomplete hbyte
    exact ⟨t, ht, _, exec_command rfl _, hends⟩

end Proofs
end Sys2Proof
end

section
/-! PROOFS. A 4-bit pair on the data side against one 8-bit cycle (30_encoding.md R135; 40_bus_cycles.md R163, R164): the
second half commits in a state that differs from that of the 8-bit cycle in the bus width, DB and the grids alone, none
of which the commit or the end of the edge reads. -/

namespace Sys2Proof
namespace Proofs

open Sys2Proof.Machine Sys2Proof.Safety Sys2Proof.Laws

/-- A state put on the 4-bit bus, with another byte on DB. -/
def onNibbleBus (db : Byte) (s : State) : State := { s with fourBit := true, db := db }

theorem exec_writeData_commit {s : State} (h : completesByte s = true) :
    exec (.writeData .falling) s = finish (commitData (dataState s) (committedData s)) :=
  writeData_commit h

/-- A data write neither reads nor writes the bus width, DB or the grids. -/
theorem commitData_onNibbleBus (db : Byte) (g : Grid × Grid) (s : State) (v : Byte) :
    commitData (onNibbleBus db (s.setGrids g)) v =
      andThen (commitData s v) fun u => .next (onNibbleBus db (u.setGrids g)) := by
  by_cases hac : s.addrCg = false → validDD s.ac.toNat s.twoLine = true
  · rw [commitData_ok hac, commitData_ok (s := onNibbleBus db (s.setGrids g)) hac]
    rfl
  · obtain ⟨hcg, hoff⟩ := Classical.not_imp.1 hac
    rw [Bool.not_eq_true] at hoff
    rw [commitData_of_invalid hcg hoff, commitData_of_invalid (s := onNibbleBus db (s.setGrids g)) hcg hoff]
    rfl

/-- The end of a committed edge draws both grids anew, and keeps the bus width and DB. -/
theorem finish_onNibbleBus (db : Byte) (g : Grid × Grid) (u : State) :
    finish (.next (onNibbleBus db (u.setGrids g))) = andThen (finish (.next u)) fun w => .next (onNibbleBus db w) := by
  have haddr : addressed (onNibbleBus db (u.setGrids g)) = addressed u := rfl
  rw [finish, finish, andThen_next, andThen_next, haddr]
  cases addressed u <;> rfl

theorem finish_commitData_onNibbleBus (db : Byte) (g : Grid × Grid) (s : State) (v : Byte) :
    finish (commitData (onNibbleBus db (s.setGrids g)) v) =
      andThen (finish (commitData s v)) fun w => .next (onNibbleBus db w) := by
  rw [commitData_onNibbleBus]
  cases commitData s v with
  | next u => exact finish_onNibbleBus db g u
  | fault r => rfl
  | refused r => rfl

/-- What a first half on the data side leaves (R164), with the grids then rendered. -/
def firstHalfState (s : State) (g : Grid × Grid) : State :=
  { s with dr := joinNibbles (hiNibble s.db) (loNibble s.dr), nibPend := true, bf := false }.setGrids g

theorem exec_writeData_firstHalf {s : State} (hfour : s.fourBit = true) (hpend : s.nibPend = false) :
    ∃ g, exec (.writeData .falling) s = .next (firstHalfState s g) := by
  have hc : completesByte s = false := by simp [completesByte, hfour, hpend]
  have hlatch : (latch true (s.setBusy true)).setBusy false =
      { s with dr := joinNibbles (hiNibble s.db) (loNibble s.dr), nibPend := true, bf := false } := by
    simp [latch, latch4, nibbleInto, State.setBusy, hfour, hpend]
  have hrun := write_firstHalf hc true fun s => commitData s s.dr
  rw [hlatch] at hrun
  exact ⟨_, hrun⟩

/-- The byte that a second half completes is made of the two high lanes. -/
theorem committedData_secondHalf {s : State} {v lo : Byte} (hfour : s.fourBit = true) (hhi : hiNibble s.db = hiNibble v)
    (hlo : hiNibble lo = loNibble v) (g : Grid × Grid) : committedData { firstHalfState s g with db := lo } = v := by
  have hbyte : joinNibbles (hiNibble (joinNibbles (hiNibble s.db) (loNibble s.dr))) (hiNibble lo) = v := by
    rw [hiNibble_joinNibbles, hhi, hlo, joinNibbles_hiNibble_loNibble]
  exact (if_pos hfour).trans hbyte

/-- The second half commits in the state in which the 8-bit cycle does, put on the 4-bit bus. -/
theorem dataState_secondHalf {s : State} {v lo : Byte} (hfour : s.fourBit = true) (hpend : s.nibPend = false)
    {g : Grid × Grid} (hv : committedData { firstHalfState s g with db := lo } = v) :
    dataState { firstHalfState s g with db := lo } =
      onNibbleBus lo ((dataState { s with fourBit := false, db := v }).setGrids g) := by
  have hwhole : committedData { s with fourBit := false, db := v } = v := rfl
  simp only [dataState, hv, hwhole]
  simp [onNibbleBus, firstHalfState, State.setGrids, hfour, hpend]

/-- Settles O38: the second half and the 8-bit cycle commit the same byte, and the rest does not see the bus. -/
theorem nibblePairEqualsWholeByte : Obligations.NibblePairEqualsWholeByte := by
  intro s t v lo hfour hpend hhi hlo ht
  obtain ⟨g, hfirst⟩ := exec_writeData_firstHalf hfour hpend
  obtain rfl := Host.Outcome.next.inj (hfirst.symm.trans ht)
  have hv : committedData { firstHalfState s g with db := lo } = v := committedData_secondHalf hfour hhi hlo g
  have hcomplete : completesByte { firstHalfState s g with db := lo } = true := Bool.or_true _
  calc exec (.writeData .falling) { firstHalfState s g with db := lo }
      = finish (commitData (onNibbleBus lo ((dataState { s with fourBit := false, db := v }).setGrids g)) v) := by
        rw [exec_writeData_commit hcomplete, dataState_secondHalf hfour hpend hv, hv]
    _ = andThen (finish (commitData (dataState { s with fourBit := false, db := v }) v)) fun w =>
          .next (onNibbleBus lo w) := finish_commitData_onNibbleBus ..
    _ = andThen (exec (.writeData .falling) { s with fourBit := false, db := v }) fun w =>
          .next (onNibbleBus lo w) := by
        rw [exec_writeData_commit (s := { s with fourBit := false, db := v }) rfl]
        rfl

end Proofs
end Sys2Proof
end

section
/-! PROOFS. The end of a falling edge (40_bus_cycles.md R162 to R170): a committed one refreshes RB from the cell then
addressed, clears BF and renders; the first half of a 4-bit pair latches its nibble, clears BF and renders. -/

namespace Sys2Proof
namespace Proofs

open Sys2Proof.Machine Sys2Proof.Safety Sys2Proof.Laws

/-- R162, R168 to R170: `finish`, by the operations that it stands for. -/
theorem finish_eq_refresh_render (o : Res) :
    finish o = andThen o fun u => andThen (refreshRB u) fun v => render (v.setBusy false) := by
  unfold finish
  congr 1
  funext u
  rw [refreshRB_eq]
  cases addressed u with
  | ok v => exact (render_eq _).symm
  | error r => rfl

/-- Settles O6: the edge is `finish` of the instruction's outcome. -/
theorem commitRunsTheDecodedInstruction : Obligations.CommitRunsTheDecodedInstruction :=
  fun _ hc => (writeInstruction_commit hc).trans (finish_eq_refresh_render _)

/-- A committed edge that leaves a valid AC goes on, and ends as R162 says. -/
theorem finish_commitEnds {u : State} (h : AcValid u) : ∃ t, finish (.next u) = .next t ∧ CommitEnds u t := by
  obtain ⟨v, hv, ht⟩ := finish_goes h
  exact ⟨_, ht, endState_ends hv⟩

/-- A committed edge that leaves DDRAM addressed off the map faults at that address (R168, R301). -/
theorem finish_off_the_map {u : State} (hcg : u.addrCg = false) (h : validDD u.ac.toNat u.twoLine = false) :
    finish (.next u) = .fault (.ddramAddress u.ac.toNat u.twoLine) := by
  rw [finish, andThen_next, addressed_of_invalid hcg h]

/-- Settles O32: the edge is `finish` of what the instruction leaves, whose AC decides. -/
theorem committedEdgeFollowsTheAcItLeaves : Obligations.CommittedEdgeFollowsTheAcItLeaves := by
  intro s u hc hu
  have hedge : exec (.writeInstruction .falling) s = finish (.next u) := by
    rw [writeInstruction_commit hc, hu]
    rfl
  rw [hedge]
  exact ⟨finish_commitEnds, finish_off_the_map⟩

/-- An operation that ends in a render goes on, writes the grids besides what it left before, and leaves them
rendered. -/
theorem exists_rendered {o : Res} {u : State} (h : o = .next (u.setGrids (grids u))) :
    ∃ t, o = .next t ∧ Rendered t ∧ t = { u with grid0 := t.grid0, grid1 := t.grid1 } :=
  ⟨_, h, setGrids_rendered u, rfl⟩

theorem latch_firstHalf_instruction {s : State} (hfour : s.fourBit = true) (hpend : s.nibPend = false) :
    (latch false (s.setBusy true)).setBusy false =
      { s with ir := joinNibbles (hiNibble s.db) (loNibble s.ir), nibPend := true, bf := false } := by
  simp [latch, latch4, nibbleInto, State.setBusy, hfour, hpend]

theorem latch_firstHalf_data {s : State} (hfour : s.fourBit = true) (hpend : s.nibPend = false) :
    (latch true (s.setBusy true)).setBusy false =
      { s with dr := joinNibbles (hiNibble s.db) (loNibble s.dr), nibPend := true, bf := false } := by
  simp [latch, latch4, nibbleInto, State.setBusy, hfour, hpend]

/-- Settles O33: the falling edge renders what the latch leaves. -/
theorem firstHalfOnlyLatches : Obligations.FirstHalfOnlyLatches := by
  refine fun s => ⟨rfl, rfl, fun hfour hpend => ?_⟩
  have hc : completesByte s = false := by simp [completesByte, hfour, hpend]
  have hinstr := write_firstHalf hc false fun s => executeIR s.ir s
  have hdata := write_firstHalf hc true fun s => commitData s s.dr
  rw [latch_firstHalf_instruction hfour hpend] at hinstr
  rw [latch_firstHalf_data hfour hpend] at hdata
  exact ⟨exists_rendered hinstr, exists_rendered hdata⟩

end Proofs
end Sys2Proof
end

section
/-! PROOFS. A committed data write (40_bus_cycles.md R165): where its byte is read back. That it leaves every other byte
is said by `dataEffect_ddByte` and `dataEffect_cgByte`. -/

namespace Sys2Proof
namespace Proofs

open Sys2Proof.Machine Sys2Proof.Safety Sys2Proof.Laws

theorem dataEffect_cgByte_same {s : State} (hcg : s.addrCg = true) (hac : s.ac.toNat < 64)
    (hwf : Memory.wf (cgramUnlisted s.cfg) cgramSize s.cgram = true) (v : Byte) :
    cgByte (dataEffect s v) s.ac.toNat = v := by
  have hindex : cgramIndex s.ac.toNat = s.ac.toNat := Nat.mod_eq_of_lt hac
  rw [cgByte, dataEffect_cgram, if_pos hcg, hindex]
  exact read_write_same (wf_iff.1 hwf).1 _ v

theorem dataEffect_ddramRead_same {s : State} (hcg : s.addrCg = false) (hac : validDD s.ac.toNat s.twoLine = true)
    (hwf : Memory.wf ddramUnlisted ddramSize s.ddram = true) (v : Byte) :
    ddramRead (dataEffect s v) s.ac.toNat = .ok v := by
  rw [ddramRead_of_phys (s := dataEffect s v) hac rfl, ddByte, dataEffect_ddram, if_neg (by simp [hcg])]
  exact congrArg Except.ok (read_write_same (wf_iff.1 hwf).1 _ v)

/-- With CGRAM addressed a data write stores there alone. -/
theorem dataEffect_stores_cg {s : State} (hcg : s.addrCg = true) (hac : AcValid s)
    (hwf : Memory.wf (cgramUnlisted s.cfg) cgramSize s.cgram = true) (v : Byte) :
    cgByte (dataEffect s v) s.ac.toNat = v ∧ (∀ a, a ≠ s.ac.toNat → cgByte (dataEffect s v) a = cgByte s a) ∧
      ∀ p, ddByte (dataEffect s v) p = ddByte s p := by
  have hlt : s.ac.toNat < 64 := (acValid_cg hcg).1 hac
  refine ⟨dataEffect_cgByte_same hcg hlt hwf v, fun a ha => ?_, fun p => ?_⟩
  · by_contra h
    exact ha ((dataEffect_cgByte h).2.trans (Nat.mod_eq_of_lt hlt))
  · by_contra h
    simp [(dataEffect_ddByte h).1] at hcg

/-- With DDRAM addressed it stores there alone. -/
theorem dataEffect_stores_dd {s : State} (hcg : s.addrCg = false) (hac : AcValid s)
    (hwf : Memory.wf ddramUnlisted ddramSize s.ddram = true) (v : Byte) :
    ddramRead (dataEffect s v) s.ac.toNat = .ok v ∧
      (∀ p, p ≠ (phys s.ac.toNat s.twoLine).toNat → ddByte (dataEffect s v) p = ddByte s p) ∧
      ∀ a, cgByte (dataEffect s v) a = cgByte s a := by
  refine ⟨dataEffect_ddramRead_same hcg ((acValid_dd hcg).1 hac) hwf v, fun p hp => ?_, fun a => ?_⟩
  · by_contra h
    exact hp (dataEffect_ddByte h).2
  · by_contra h
    simp [(dataEffect_cgByte h).1] at hcg

/-- Settles O34: the edge is `finish` of the data write's effect, and `finish` writes neither memory. -/
theorem writeDataStoresAtAc : Obligations.WriteDataStoresAtAc := by
  intro s hc hac hdd hcg
  obtain ⟨v, hv, ht⟩ := finish_goes (dataEffect_acValid (dataState s) (committedData s))
  refine ⟨_, (data_eq hc fun h => (acValid_dd h).1 hac).trans ht, fun h => ?_, fun h => ?_, rfl, rfl, hv,
    setGrids_rendered _, rfl⟩
  · exact dataEffect_stores_cg (s := dataState s) h hac hcg _
  · exact dataEffect_stores_dd (s := dataState s) h hac hdd _

end Proofs
end Sys2Proof
end

section
/-! PROOFS. The reads (40_bus_cycles.md R158 to R161, R167, R174): what the two halves of a byte on DB[7:4] say of it,
and what each edge of READ_BF_AC and READ_DATA does. -/

namespace Sys2Proof
namespace Proofs

open Sys2Proof.Machine Sys2Proof.Safety Sys2Proof.Laws

theorem toNat_append_eq_add {m n : Nat} (x : BitVec m) (y : BitVec n) :
    (x ++ y).toNat = x.toNat * 2 ^ n + y.toNat := by
  rw [BitVec.toNat_append, ← Nat.shiftLeft_add_eq_or_of_lt y.isLt, Nat.shiftLeft_eq]

theorem toNat_composite (bf : Bool) (ac : Addr) : (composite bf ac).toNat = 128 * bf.toNat + ac.toNat := by
  rw [composite, toNat_append_eq_add, BitVec.toNat_ofBool, Nat.mul_comm]
  rfl

theorem toNat_onHighLane (n : BitVec 4) : (onHighLane n).toNat = 16 * n.toNat := by
  rw [onHighLane, toNat_append_eq_add, Nat.mul_comm]
  rfl

theorem toNat_hiNibble (v : Byte) : (hiNibble v).toNat = v.toNat / 16 := by
  have h : v.toNat < 256 := v.isLt
  rw [hiNibble, BitVec.extractLsb'_toNat, Nat.shiftRight_eq_div_pow]
  omega

theorem toNat_loNibble (v : Byte) : (loNibble v).toNat = v.toNat % 16 := by
  rw [loNibble, BitVec.extractLsb'_toNat, Nat.shiftRight_zero]

/-- The two halves of a byte, as the host takes them from DB[7:4], give it back (R160, R174). -/
theorem lanes_give_byte (v : Byte) : (onHighLane (hiNibble v)).toNat % 16 = 0 ∧
    (onHighLane (loNibble v)).toNat % 16 = 0 ∧
    (onHighLane (hiNibble v)).toNat + (onHighLane (loNibble v)).toNat / 16 = v.toNat := by
  rw [toNat_onHighLane, toNat_onHighLane, toNat_hiNibble, toNat_loNibble]
  omega

/-- R159: READ_BF_AC in 8-bit mode. -/
theorem exec_readBfAc_whole {s : State} (h : s.fourBit = false) :
    exec (.readBfAc .rising) s = .next { s with db := composite s.bf s.ac } :=
  congrArg Host.Outcome.next (if_neg (by simp [h]))

/-- R160: the first of two 4-bit reads. -/
theorem exec_readBfAc_high {s : State} (h : s.fourBit = true) (hp : s.rdPhase = false) : exec (.readBfAc .rising) s =
    .next { s with db := onHighLane (hiNibble (composite s.bf s.ac)), rdPhase := true } :=
  congrArg Host.Outcome.next ((if_pos h).trans (if_pos (by simp [hp])))

/-- R160: the second. -/
theorem exec_readBfAc_low {s : State} (h : s.fourBit = true) (hp : s.rdPhase = true) : exec (.readBfAc .rising) s =
    .next { s with db := onHighLane (loNibble (composite s.bf s.ac)), rdPhase := false } :=
  congrArg Host.Outcome.next ((if_pos h).trans (if_neg (by simp [hp])))

/-- Settles O35: BF and AC stay through both reads, so their halves are those of one composite. -/
theorem busyFlagReadGivesAc : Obligations.BusyFlagReadGivesAc := by
  refine fun s => ⟨fun h => ⟨exec_readBfAc_whole h, toNat_composite _ _⟩, fun h hp => ?_, fun h hp => ?_, rfl⟩
  · obtain ⟨hhi, hlo, hbyte⟩ := lanes_give_byte (composite s.bf s.ac)
    refine ⟨_, _, exec_readBfAc_high h hp, rfl, exec_readBfAc_low h rfl, ?_, hhi, hlo,
      hbyte.trans (toNat_composite _ _)⟩
    rw [← hp]
  · refine ⟨_, exec_readBfAc_low h hp, rfl, ?_⟩
    have hac : (composite s.bf s.ac).toNat % 16 = s.ac.toNat % 16 := by rw [toNat_composite]; omega
    simp only [toNat_onHighLane, toNat_loNibble, hac]

/-- The rising edge of READ_DATA where it moves a whole byte (R158). -/
theorem exec_readData_rise_whole {s : State} (h : ¬ SplitRead s) : exec (.readData .rising) s =
    .next { s with db := s.rb, ac := (advanceAC s (dirOf s.idFlag)).ac } :=
  congrArg Host.Outcome.next (readData_whole h).2

/-- R174: the rising edge of the first of two split reads. -/
theorem exec_readData_rise_first {s : State} (h : SplitRead s) (hp : s.rdDataPhase = false) :
    exec (.readData .rising) s = .next { s with db := onHighLane (hiNibble s.rb), rdDataPhase := true } := by
  obtain ⟨hfour, hsplit⟩ := h
  refine congrArg Host.Outcome.next ?_
  rw [hsplit, readDataRise, if_pos hfour, readDataHalf, if_pos (by simp [hp])]

/-- R174: the rising edge of the second. -/
theorem exec_readData_rise_second {s : State} (h : SplitRead s) (hp : s.rdDataPhase = true) :
    exec (.readData .rising) s = .next { s with db := onHighLane (loNibble s.rb), rdDataPhase := false,
                                                ac := (advanceAC s (dirOf s.idFlag)).ac } := by
  obtain ⟨hfour, hsplit⟩ := h
  refine congrArg Host.Outcome.next ?_
  rw [hsplit, readDataRise, if_pos hfour, readDataHalf, if_neg (by simp [hp])]
  rfl

/-- A falling edge of READ_DATA commits unless a first half came last (R167, R174). -/
theorem exec_readData_fall_commits {s : State} (h : SplitRead s → s.rdDataPhase = false) :
    exec (.readData .falling) s = finish (.next s) := by
  have hc : readDataCommits s.cfg.params.fourBitDataRead s = true := by
    by_cases hs : SplitRead s
    · simp [readDataCommits, hs.2, h hs]
    · exact (readData_whole hs).1
  rw [readData_fall, if_pos hc]
  rfl

/-- R174: the falling edge after a first half only clears BF and renders. -/
theorem exec_readData_fall_first {s : State} (h : SplitRead s) (hp : s.rdDataPhase = true) :
    exec (.readData .falling) s = .next ((s.setBusy false).setGrids (grids (s.setBusy false))) := by
  obtain ⟨hfour, hsplit⟩ := h
  rw [readData_fall, if_neg (by simp [readDataCommits, hfour, hsplit, hp])]

/-- Settles O36: the falling edge is `finish` of the state that it finds. -/
theorem readDataDrivesTheBuffer : Obligations.ReadDataDrivesTheBuffer := by
  refine fun s h => ⟨⟨_, exec_readData_rise_whole h, rfl, rfl⟩, fun hac => ?_⟩
  rw [exec_readData_fall_commits fun hs => absurd hs h]
  exact finish_commitEnds hac

/-- Settles O37: the phase leads through the four edges, a line each below; AC is valid at the last, having just been
stepped. -/
theorem splitDataReadTakesTwoCycles : Obligations.SplitDataReadTakesTwoCycles := by
  intro s h hp
  obtain ⟨v, hv⟩ := addressed_of_valid (advanceAC_acValid s (dirOf s.idFlag))
  exact ⟨_, _, _, _,
    exec_readData_rise_first h hp, rfl,
    exec_readData_fall_first h rfl, rfl, setGrids_rendered _,
    exec_readData_rise_second h rfl, rfl, rfl,
    (exec_readData_fall_commits fun _ => rfl).trans (finish_of_ok hv), endState_ends hv,
    lanes_give_byte s.rb⟩

end Proofs
end Sys2Proof
end

section
/-! PROOFS. The host operations that run no bus cycle (40_bus_cycles.md R150 to R156, R171): the level pins, power, and
Recompute. -/

namespace Sys2Proof
namespace Proofs

open Sys2Proof.Machine Sys2Proof.Safety Sys2Proof.Laws

/-- R156: without a processed edge SetEnable stores the level. -/
theorem setEnable_level {s : State} {b : Bool} (h : s.pwr = false ∨ s.e = b) :
    setEnable b s = .next { s with e := b } := by
  unfold setEnable
  obtain hp | he := h
  · simp [hp]
  · simp [he]

/-- Settles O8: a step takes the coming operation, which writes its pin. -/
theorem levelPinsWriteOnlyThemselves : Obligations.LevelPinsWriteOnlyThemselves :=
  fun s rest _ _ hf => ⟨step_input hf, step_input hf, step_input hf, step_input hf,
    fun hi h => (step_input hf hi).trans (setEnable_level (s := { s with inputs := rest }) h)⟩

/-- Rendered grids are what a render writes. -/
theorem render_of_rendered {s : State} (h : Rendered s) : render s = .next s := by
  unfold render
  rw [h]
  rfl

/-- Settles O41: a render leaves its grids rendered. -/
theorem recomputeCannotFault : Obligations.RecomputeCannotFault := fun s =>
  ⟨_, render_eq s, rfl, setGrids_rendered s, render_of_rendered (setGrids_rendered s)⟩

/-- R275: without power every dot that Render writes is off. -/
theorem grids_dark_of_unpowered {s : State} (hp : s.pwr = false) :
    ∀ row ∈ (grids s).1.dots ++ (grids s).2.dots, ∀ dot ∈ row, dot = false := by
  have hgate (row : List Bool) : gatePower s row = darkRow s := if_neg (by simp [hp])
  intro row hrow dot hdot
  have hdark : row = darkRow s := by
    simp only [grids, drawGrids, hgate, List.mem_append, List.mem_map] at hrow
    obtain ⟨y, -, h⟩ | ⟨y, -, h⟩ := hrow
    · exact h.symm
    · exact h.symm
  rw [hdark] at hdot
  exact List.eq_of_mem_replicate hdot

theorem setPower_on {s : State} (hp : s.pwr = false) : setPower true s = resetBlock { s with pwr := true } := by
  simp [setPower, hp]

theorem setPower_off {s : State} (hp : s.pwr = true) : setPower false s = render { s with pwr := false } := by
  simp [setPower, hp]

theorem setPower_same (s : State) : setPower s.pwr s = .next s := if_pos rfl

/-- Settles O14: the three cases of SetPower. -/
theorem powerTransitions : Obligations.PowerTransitions := by
  refine fun s => ⟨setPower_on, fun hp => ?_, setPower_same s⟩
  exact ⟨_, (setPower_off hp).trans (render_eq _), rfl, setGrids_rendered _, grids_dark_of_unpowered rfl⟩

end Proofs
end Sys2Proof
end

section
/-! PROOFS. The instructions of IR that load AC with an address of their own (41_instructions.md R191, R192, R197, R198):
the cell addressed afterwards is valid whatever AC was, so the edge that commits one of them never faults, from any
state, and the cell that RefreshRB reads is named. -/

namespace Sys2Proof
namespace Proofs

open Sys2Proof.Machine Sys2Proof.Safety Sys2Proof.Laws

/-- What the edge that commits the instruction i leaves, when the cell that i leaves addressed holds v. -/
theorem commitLeaves_of_decode {s : State} {b v : Byte} {i : Instr} {P : State → Prop} (hb : decodeIR b = i)
    (hv : addressed (commandEffect i (commandState s)) = .ok v)
    (hP : P (endState (commandEffect i (commandState s)) v)) : CommitLeaves s b P :=
  commitLeaves_of ⟨_, v, hb ▸ exec_decodeIR b (commandState s), hv, hP⟩

/-- R168 at the home address, in either line mode. -/
theorem addressed_home {u : State} (hcg : u.addrCg = false) (hac : u.ac = 0) : addressed u = .ok (ddByte u 0) := by
  have hread : addressed u = ddramRead u (0 : Nat) := by simp [addressed, hcg, hac]
  have hphys : (phys (0 : Nat) u.twoLine).toNat = 0 := by simp [phys]
  rw [hread, ddramRead_of_phys (validDD_zero _) hphys]

/-- R168 at a CGRAM address. -/
theorem addressed_cgram {u : State} (hcg : u.addrCg = true) (hac : u.ac.toNat < 64) :
    addressed u = .ok (cgByte u u.ac.toNat) := by
  have hindex : cgramIndex u.ac.toNat = u.ac.toNat := Nat.mod_eq_of_lt hac
  rw [addressed, if_pos hcg, cgramRead, hindex, cgByte]

/-- Settles O23: with DDRAM cleared every cell is blank, that of the home address among them. -/
theorem clearDisplayBlanksAndGoesHome : Obligations.ClearDisplayBlanksAndGoesHome := by
  refine ⟨decodeIR_clearDisplay, fun s => ⟨_, exec_command rfl s, fun _ => rfl, rfl, rfl, rfl, rfl, rfl, ?_⟩⟩
  have hrb := addressed_home (u := commandEffect .clearDisplay (commandState s)) rfl rfl
  exact commitLeaves_of_decode decodeIR_clearDisplay hrb
    ⟨rfl, fun _ => rfl, _, exec_command rfl _, endState_ends hrb⟩

/-- The two bytes of R125. -/
theorem decodeIR_returnHome_row {b : Byte} (h : b = 0x02#8 ∨ b = 0x03#8) : ∃ x, decodeIR b = .returnHome x := by
  rcases h with rfl | rfl
  · exact ⟨0, decodeIR_returnHome 0⟩
  · exact ⟨1, decodeIR_returnHome 1⟩

/-- Settles O24: the effect sets three fields to constants, whatever the don't-care bit, and keeps DDRAM. -/
theorem returnHomeIsIdempotent : Obligations.ReturnHomeIsIdempotent := by
  refine ⟨decodeIR_returnHome 0, decodeIR_returnHome 1, fun s x => ?_⟩
  refine ⟨_, exec_command rfl s, rfl, exec_command rfl _, fun b hb => ?_⟩
  obtain ⟨y, hy⟩ := decodeIR_returnHome_row hb
  have hrb := addressed_home (u := commandEffect (.returnHome y) (commandState s)) rfl rfl
  exact commitLeaves_of_decode hy hrb ⟨rfl, rfl, rfl, rfl, rfl, _, exec_command rfl _, endState_ends hrb⟩

/-- The row of R130 in the table. -/
theorem decodeIR_setCgramAddr_row {b : Byte} {a : BitVec 6} (hlo : 0x40 ≤ b.toNat) (hhi : b.toNat ≤ 0x7F)
    (ha : b.toNat % 64 = a.toNat) : decodeIR b = .setCgramAddr a := by
  have hsum : (0b01#2 ++ a).toNat = 64 + a.toNat := toNat_append_eq_add _ a
  have hb : b = 0b01#2 ++ a := BitVec.eq_of_toNat_eq (by omega)
  rw [hb, decodeIR_setCgramAddr]

/-- Settles O29: the address zero-extended keeps its value, which is below 64. -/
theorem setCgramAddrLoadsSixBits : Obligations.SetCgramAddrLoadsSixBits := by
  intro s a
  have hac : (a.setWidth 7).toNat = a.toNat := BitVec.toNat_setWidth_of_le (by decide)
  refine ⟨_, exec_command rfl s, rfl, hac, fun b hlo hhi ha => ?_⟩
  have hrb := addressed_cgram (u := commandEffect (.setCgramAddr a) (commandState s)) rfl (hac.trans_lt a.isLt)
  exact commitLeaves_of_decode (decodeIR_setCgramAddr_row hlo hhi ha) hrb
    ⟨congrArg (cgByte s) hac, _, exec_command rfl _, endState_ends hrb⟩

/-- The row of R131 in the table. -/
theorem decodeIR_setDdramAddr_row {b : Byte} {a : BitVec 7} (hlo : 0x80 ≤ b.toNat) (ha : b.toNat % 128 = a.toNat) :
    decodeIR b = .setDdramAddr a := by
  have hsum : (0b1#1 ++ a).toNat = 128 + a.toNat := toNat_append_eq_add _ a
  have hb : b = 0b1#1 ++ a := BitVec.eq_of_toNat_eq (by omega)
  rw [hb, decodeIR_setDdramAddr]

/-- R232: the address loaded is the normalized operand, in the direction from the AC found. -/
theorem setDdramAddr_ac (s : State) (a : BitVec 7) : (commandEffect (.setDdramAddr a) s).ac =
    normDD s.cfg.params.clampCmp s.twoLine a.toNat (loadDir s.cfg.params s.ac a) := rfl

/-- The decided LOAD_DIR is inc exactly when the new address is above the old (D11, log 7). -/
theorem loadDir_decided_eq_inc_iff (old new : Addr) : loadDir decided old new = .inc ↔ old.toNat < new.toNat := by
  rw [loadDir_decided, ← BitVec.lt_def]
  by_cases h : old < new <;> simp [h]

/-- Settles O30: the clauses about AC are the cases of R230, applied to the operand, and a normalized address is valid. -/
theorem setDdramAddrNormalizesTheLoad : Obligations.SetDdramAddrNormalizesTheLoad := by
  intro s a
  have hmask : (a.toNat : Int) % 128 = a.toNat := by omega
  have htop_le : s.top ≤ 103 := topAddr_le s.twoLine
  refine ⟨_, exec_command rfl s, rfl, ?_⟩
  rw [setDdramAddr_ac]
  refine ⟨fun hvalid htop => ?_, fun hge htop => ?_, fun h127 => ?_, fun h127 habove => ?_, fun htwo hlo hhi => ?_,
    fun b hlo ha => ?_⟩
  · exact BitVec.eq_of_toNat_eq (normDD_of_valid hmask hvalid htop _)
  · exact BitVec.eq_of_toNat_eq (normDD_of_above hmask (by omega) (aboveTop_iff.2 (.inr ⟨hge, htop⟩)) _)
  · exact normDD_of_127 (by omega) _
  · exact normDD_of_above hmask h127 (aboveTop_iff.2 (.inl habove)) _
  · rw [htwo, normDD_of_gap hmask hlo hhi]
    refine ⟨rfl, fun hdecided => ?_⟩
    simp only [hdecided, loadDir_decided_eq_inc_iff]
  · obtain ⟨v, hv⟩ := addressed_ok (s := commandEffect (.setDdramAddr a) (commandState s)) fun _ => normDD_valid_of ..
    exact commitLeaves_of_decode (decodeIR_setDdramAddr_row hlo ha) hv ⟨_, exec_command rfl _, endState_ends hv⟩

end Proofs
end Sys2Proof
end

section
/-! PROOFS. The address counter and the display shift on their own (42_address_counter.md R230, R231, R234, R236): the
cases of the normalization, the two readings of CLAMP_CMP side by side, and the wrap of SHIFT. -/

namespace Sys2Proof
namespace Proofs

open Sys2Proof.Machine Sys2Proof.Safety Sys2Proof.Laws

/-- Up to TOP the gap alone holds addresses that are not valid (R82). -/
theorem validDD_of_le_topAddr {two : Bool} {m : Nat} (hle : m ≤ topAddr two) (hgap : two = true → m < 40 ∨ 63 < m) :
    validDD m two = true := by
  rw [validDD_iff]
  cases two with
  | false => simpa [topAddr] using hle
  | true =>
    have hle' : m ≤ 103 := hle
    have hout := hgap rfl
    rw [if_pos rfl]
    omega

/-- Settles O18: the four cases of R230, a value up to TOP and off the gap being valid. -/
theorem normDDByCases : Obligations.NormDDByCases := by
  refine fun two v dir m hm => ⟨fun h127 => ?_, fun h127 habove => ?_, fun htwo hlo hhi => ?_, fun hle hgap => ?_⟩
  · exact normDD_of_127 (by omega) dir
  · exact normDD_of_above hm.symm h127 (aboveTop_iff.2 (.inl habove)) dir
  · subst htwo
    exact normDD_of_gap hm.symm hlo hhi dir
  · exact normDD_of_valid hm.symm (validDD_of_le_topAddr hle hgap) (.inl rfl) dir

/-- The comparison that CLAMP_CMP names is decided alike off equality (R236). -/
theorem aboveTop_ge_eq_gt {m top : Nat} (hne : m ≠ top) : aboveTop .ge m top = aboveTop .gt m top := by
  rw [Bool.eq_iff_iff, aboveTop_iff, aboveTop_iff]
  simp [hne]

theorem normDD_ge_eq_gt {two : Bool} {v : Int} (hne : v % 128 ≠ topAddr two) (dir : Dir) :
    normDD .ge two v dir = normDD .gt two v dir := by
  obtain ⟨m, hm⟩ := Int.eq_ofNat_of_zero_le (Int.emod_nonneg v (b := 128) (by decide))
  have hclamp : clampDD .ge two v = clampDD .gt two v := by
    rw [clampDD_of_mask hm, clampDD_of_mask hm, aboveTop_ge_eq_gt (by omega)]
  exact BitVec.eq_of_toNat_eq (by rw [normDD_toNat, normDD_toNat, hclamp])

/-- Settles O19: at TOP, GT finds a valid address and GE a value to snap; elsewhere the comparisons agree. -/
theorem clampReadingsDifferAtTopAlone : Obligations.ClampReadingsDifferAtTopAlone := by
  refine fun two v dir => ⟨fun htop => ⟨?_, ?_⟩, fun hne => normDD_ge_eq_gt hne dir, fun cmp => normDD_valid_of ..⟩
  · exact normDD_of_valid htop (validDD_topAddr two) (.inl rfl) dir
  · have hle : topAddr two ≤ 103 := topAddr_le two
    exact normDD_of_above htop (by omega) (aboveTop_iff.2 (.inr ⟨rfl, rfl⟩)) dir

/-- Settles O20: a step of either address space, and the update of AC alone around it. -/
theorem advanceStepsToTheNeighbour : Obligations.AdvanceStepsToTheNeighbour :=
  fun _ dir => ⟨rfl, fun hcg => advanceAC_ac_cg hcg dir, fun hcg hvalid => advanceAC_ac_dd hcg hvalid dir⟩

/-- R234: a step of one can reach the line width but not pass it, and there it wraps. -/
theorem shiftBy_natAbs_lt {lw : Nat} {shift d : Int} (hd : d = 1 ∨ d = -1) (h : shift.natAbs < lw) :
    (shiftBy lw shift d).natAbs < lw := by
  rw [shiftBy_eq]
  split_ifs <;> omega

/-- Settles O21: the tests of R234 in turn, and the bound that they keep. -/
theorem shiftWrapsAtTheLineWidth : Obligations.ShiftWrapsAtTheLineWidth := by
  intro s d hd
  have hshift : (shiftDisplay s d).shift =
      if s.shift + d = s.lw then 0 else if s.shift + d = -(s.lw : Int) then 0 else s.shift + d := shiftBy_eq ..
  refine ⟨rfl, ?_, fun hright hleft => ?_, shiftBy_natAbs_lt hd⟩
  · rintro (hright | hleft)
    · rw [hshift, if_pos hright]
    · rw [hshift, if_pos hleft, ite_self]
  · rw [hshift, if_neg hright, if_neg hleft]

end Proofs
end Sys2Proof
end

section
/-! PROOFS. The source addresses of both grids (43_rendering.md R263 to R266, R276) and the cursor cell (R270). -/

namespace Sys2Proof
namespace Proofs

open Sys2Proof.Machine Sys2Proof.Safety Sys2Proof.Laws

/-- R263: the column shown is the Euclidean remainder, which is not negative. -/
theorem shiftedColumn_cast (s : State) {w : Nat} (hw : 0 < w) (c : Nat) :
    Int.ofNat (shiftedColumn s w c) = ((c : Int) - s.shift) % w :=
  Int.toNat_of_nonneg (Int.emod_nonneg _ (by omega))

theorem lw_of_twoLine {s : State} (h : s.twoLine = true) : s.lw = 40 := by simp [State.lw, h, lineWidth]

theorem grid0_source (s : State) {c : Nat} (h : c < s.lw) : (grids s).1.source c = some (shiftedColumn s s.lw c) := by
  simp [grids, drawGrids, Grid.source, cells0_get s h, cellAt]

theorem grid1_source_twoLine {s : State} (htwo : s.twoLine = true) {c : Nat} (h : c < s.lw) :
    (grids s).2.source c = some (64 + shiftedColumn s 40 c) := by
  simp [grids, drawGrids, Grid.source, src1, htwo, cells1_get s htwo (lw_of_twoLine htwo ▸ h), cellAt]

theorem grid1_source_extended {s : State} (htwo : s.twoLine = false) (hext : s.extFont = true) (c : Nat) :
    (grids s).2.source c = (grids s).1.source c := by
  simp [grids, drawGrids, Grid.source, src1, htwo, hext]

theorem grid1_source_blank {s : State} (htwo : s.twoLine = false) (hext : s.extFont = false) (c : Nat) :
    (grids s).2.source c = none := by
  simp [grids, drawGrids, Grid.source, src1, htwo, hext, List.getElem?_replicate]

/-- R58: a column that shows an address is a column of the grid. -/
theorem lt_of_source {gw w : Nat} {g : Grid} (hg : GridFits gw w g) {c a : Nat} (h : g.source c = some a) : c < w := by
  obtain ⟨o, ho, -⟩ := Option.bind_eq_some_iff.1 h
  obtain ⟨hc, -⟩ := List.getElem?_eq_some_iff.1 ho
  exact hg.src ▸ hc

/-- Settles O42: the grids' sources by mode, the remainders being naturals. -/
theorem sourceAddressesFollowTheShift : Obligations.SourceAddressesFollowTheShift := by
  intro s t h c hc
  rw [render_eq_next h, setGrids_grid0, setGrids_grid1]
  refine ⟨?_, fun htwo => ?_, fun htwo hext => grid1_source_extended htwo hext c,
    fun htwo hext => grid1_source_blank htwo hext c⟩
  · rw [grid0_source s hc, Option.map_some, shiftedColumn_cast s (lw_pos s)]
  · rw [grid1_source_twoLine htwo hc, Option.map_some]
    exact congrArg (fun n => some (64 + n)) (shiftedColumn_cast s (w := 40) (by decide) c)

/-- R276, read backwards: a column that shows an address is inside its grid and shows the first line's address, or on the
second grid the second line's. -/
theorem source_cases {s : State} {line : Bool} {c a : Nat}
    (h : ((s.setGrids (grids s)).grid line).source c = some a) : c < s.lw ∧
      ((a = shiftedColumn s s.lw c ∧ (line = true → s.twoLine = false ∧ s.extFont = true)) ∨
        (a = 64 + shiftedColumn s s.lw c ∧ line = true ∧ s.twoLine = true)) := by
  obtain ⟨hfit0, hfit1⟩ := grids_fit s
  cases line with
  | false =>
    have h0 : (grids s).1.source c = some a := h
    have hc : c < s.lw := lt_of_source hfit0 h0
    rw [grid0_source s hc] at h0
    exact ⟨hc, .inl ⟨(Option.some.inj h0).symm, nofun⟩⟩
  | true =>
    have h1 : (grids s).2.source c = some a := h
    have hc : c < s.lw := lt_of_source hfit1 h1
    refine ⟨hc, ?_⟩
    cases htwo : s.twoLine with
    | true =>
      rw [grid1_source_twoLine htwo hc] at h1
      exact .inr ⟨lw_of_twoLine htwo ▸ (Option.some.inj h1).symm, rfl, rfl⟩
    | false =>
      cases hext : s.extFont with
      | true =>
        rw [grid1_source_extended htwo hext, grid0_source s hc] at h1
        exact .inl ⟨(Option.some.inj h1).symm, fun _ => ⟨rfl, rfl⟩⟩
      | false =>
        rw [grid1_source_blank htwo hext] at h1
        cases h1

/-- R270: the cursor cell, as its three conditions. -/
theorem cursorHere_iff (s : State) (a : Nat) : cursorHere s a = true ↔
    s.addrCg = false ∧ s.ac.toNat = a ∧ (s.dispD = true ∨ s.cfg.params.cursorWhenDisplayOff = true) := by
  simp [cursorHere, and_assoc]

theorem overlayRow_eq (s : State) {r : Nat} (h : r < 11) : overlayRow s r =
    (if s.dispC then (if s.extFont then s.cfg.font.cursor11[r] else s.cfg.font.cursor8[r]) else 0#8) |||
    (if s.dispB = true ∧ s.blink = true then (if s.extFont then s.cfg.font.blink11[r] else s.cfg.font.blink8[r])
      else 0#8) := by
  simp [overlayRow, cursorRow, blinkRow, h]

/-- Settles O46: the definitions, the overlays' rows being in their tables. -/
theorem cursorCellAndItsOverlays : Obligations.CursorCellAndItsOverlays :=
  fun s => ⟨cursorHere_iff s, fun _ h => overlayRow_eq s h⟩

/-- Settles O51: both cells are at AC; the first line's addresses are below the second's, and within a line the column
tells the address. -/
theorem atMostOneCursorCell : Obligations.AtMostOneCursorCell := by
  intro s t h l l' c c' a a' ha hcur ha' hcur'
  obtain ⟨-, hac, -⟩ := (cursorHere_iff s a).1 hcur
  obtain ⟨-, hac', -⟩ := (cursorHere_iff s a').1 hcur'
  have haa : a = a' := hac.symm.trans hac'
  rw [render_eq_next h] at ha ha'
  obtain ⟨hc, hl⟩ := source_cases ha
  obtain ⟨hc', hl'⟩ := source_cases ha'
  have hlt (htwo : s.twoLine = true) (d : Nat) : shiftedColumn s s.lw d < 64 := by
    have := shiftedColumn_lt s (lw_pos s) d
    rw [lw_of_twoLine htwo] at this ⊢
    omega
  obtain ⟨e, hline⟩ | ⟨e, hline, htwo⟩ := hl
  · obtain ⟨e', hline'⟩ | ⟨e', hline', htwo'⟩ := hl'
    · refine ⟨shiftedColumn_injective s hc hc' (by omega), haa, fun hmode => ?_⟩
      have hfirst {d : Bool} (hd : d = true → s.twoLine = false ∧ s.extFont = true) : d = false := by
        refine Bool.eq_false_iff.2 fun h => ?_
        obtain ⟨htwo, hext⟩ := hd h
        simp [htwo, hext] at hmode
      exact (hfirst hline).trans (hfirst hline').symm
    · have := hlt htwo' c
      omega
  · obtain ⟨e', hline'⟩ | ⟨e', hline', htwo'⟩ := hl'
    · have := hlt htwo c'
      omega
    · exact ⟨shiftedColumn_injective s hc hc' (by omega), haa, fun _ => hline.trans hline'.symm⟩

end Proofs
end Sys2Proof
end

section
/-! PROOFS. The dots of both grids (43_rendering.md R262, R264 to R275): a drawn row, cell by cell, and which row of which
line stands in each row of the second grid. -/

namespace Sys2Proof
namespace Proofs

open Sys2Proof.Machine Sys2Proof.Safety Sys2Proof.Laws

theorem getLsbD_ite_zero {w : Nat} (p : Bool) (x : BitVec w) (b : Nat) :
    (if p then x else 0#w).getLsbD b = (p && x.getLsbD b) := by
  cases p <;> simp

/-- R271 to R273: the cursor's bit or the blink's. -/
theorem overlayRow_getLsbD (s : State) (r b : Nat) : (overlayRow s r).getLsbD b =
    (s.dispC && (cursorRow s.cfg.font s.extFont r).getLsbD b ||
      s.dispB && s.blink && (blinkRow s.cfg.font s.extFont r).getLsbD b) := by
  rw [overlayRow, BitVec.getLsbD_or, getLsbD_ite_zero, getLsbD_ite_zero]

/-- R270 to R273: the bits that the model's overlays add to a cell. -/
theorem overlayBit_eq (s : State) (a r b : Nat) :
    (cursorHere s a && (overlayRow s r).getLsbD b) = overlayBit s a r b := by
  rw [cursorHere, overlayRow_getLsbD, overlayBit, beq_eq_decide]

/-- R269, R273: the dot that bit b of row r of a cell of a line lights. -/
theorem drawRow_dot {s : State} {cells : List Cell} {c a b : Nat} {k : Byte} (hcell : cells[c]? = some (cellAt s a))
    (hvalid : validDD a s.twoLine = true) (hon : s.dispD = true → ddramRead s a = .ok k)
    (hoff : s.dispD = false → k = 0x20#8) (hb : b < s.cfg.params.glyphWidth) (r : Nat) :
    (drawRow s cells r)[c * s.cfg.params.glyphWidth + (s.cfg.params.glyphWidth - 1 - b)]? =
      some ((glyphRow s k r).getLsbD b || overlayBit s a r b) := by
  have hbit : s.cfg.params.glyphWidth - 1 - (s.cfg.params.glyphWidth - 1 - b) = b := by omega
  rw [drawRow_get s cells r hcell (by omega), hbit, cellAt, codeAt_of hvalid hon hoff, cellRow_getLsbD, overlayBit_eq]

/-- R263: the address of a column of the first line is valid. -/
theorem firstAddress_valid (s : State) {c : Nat} (h : c < s.lw) : validDD (shiftedColumn s s.lw c) s.twoLine = true :=
  firstLine_valid s _ (List.mem_map_of_mem (List.mem_range.2 h))

/-- R264: the address of a column of the second line is valid. -/
theorem secondAddress_valid {s : State} (htwo : s.twoLine = true) {c : Nat} (h : c < 40) :
    validDD (64 + shiftedColumn s 40 c) s.twoLine = true :=
  secondLine_valid htwo (List.mem_map.2 ⟨c, List.mem_range.2 h, rfl⟩)

theorem grid0_dot {s : State} (hp : s.pwr = true) {y : Nat} (hy : y < 8) (x : Nat) :
    (grids s).1.dot? y x = (drawRow s (cells0 s) y)[x]? := (drawGrids_dot s hp hy x _ _).1

theorem grid1_dot {s : State} (hp : s.pwr = true) {y : Nat} (hy : y < 8) (x : Nat) :
    (grids s).2.dot? y x = (row1 s (cells0 s) (cells1 s) y)[x]? := (drawGrids_dot s hp hy x _ _).2

/-- Settles O43: the dot of the cell that the column shows. -/
theorem firstGridShowsTheGlyphRows : Obligations.FirstGridShowsTheGlyphRows := by
  intro s t hp h c y b hc hy hb a k ha hon hoff
  rw [render_eq_next h, setGrids_grid0] at ha ⊢
  obtain rfl : shiftedColumn s s.lw c = a := Option.some.inj ((grid0_source s hc).symm.trans ha)
  rw [grid0_dot hp hy]
  exact drawRow_dot (cells0_get s hc) (firstAddress_valid s hc) hon hoff hb y

theorem orRow_replicate_false_left : ∀ row : List Bool, orRow (List.replicate row.length false) row = row
  | [] => rfl
  | d :: row => congrArg (d :: ·) (orRow_replicate_false_left row)

theorem orRow_replicate_false_right : ∀ row : List Bool, orRow row (List.replicate row.length false) = row
  | [] => rfl
  | d :: row => by
    have ih := orRow_replicate_false_right row
    simp only [orRow] at ih
    simp [orRow, List.replicate_succ, ih]

/-- R264: without the extended font the second grid's rows in two-line mode are the second line's. -/
theorem row1_twoLine {s : State} (htwo : s.twoLine = true) (hext : s.extFont = false) (y : Nat) :
    row1 s (cells0 s) (cells1 s) y = drawRow s (cells1 s) y := by
  have hdark : darkRow s = List.replicate (drawRow s (cells1 s) y).length false := by
    rw [darkRow, drawRow_length, cells1_length htwo]
  have hborrowed (cells : List Cell) : borrowedRow s cells y = darkRow s := if_neg (by simp [hext])
  rw [row1, if_pos htwo, hborrowed, hborrowed, hdark, orRow_replicate_false_right, orRow_replicate_false_left]

/-- R266: rows 8..10 of the first line's cells. -/
theorem row1_borrowed {s : State} (htwo : s.twoLine = false) (hext : s.extFont = true) {y : Nat} (hy : y < 3)
    (c0 c1 : List Cell) : row1 s c0 c1 y = drawRow s c0 (8 + y) := by
  simp [row1, borrowedRow, htwo, hext, hy]

/-- R265, R266: in one-line mode nothing else is drawn. -/
theorem row1_dark {s : State} (htwo : s.twoLine = false) {y : Nat} (h : s.extFont = true → 3 ≤ y)
    (c0 c1 : List Cell) : row1 s c0 c1 y = darkRow s := by
  have hnot : ¬ (s.extFont && decide (y < 3)) = true := by simpa using h
  rw [row1, htwo, if_neg Bool.false_ne_true, borrowedRow, if_neg hnot]

/-- Settles O44: the second grid's row in each display configuration, and the dot of the cell that the column shows. -/
theorem secondGridByMode : Obligations.SecondGridByMode := by
  intro s t hp hone h c y b x hc hy hb hx
  have honeLine (hext : s.extFont = true) : s.twoLine = false := by
    cases htwo : s.twoLine with
    | true => exact absurd ⟨htwo, hext⟩ hone
    | false => rfl
  subst hx
  rw [render_eq_next h, setGrids_grid1, grid1_dot hp hy]
  refine ⟨fun htwo hext => ?_, fun hext hlow => ?_, fun a k ha hon hoff => ⟨fun htwo => ?_, fun hext hhigh => ?_⟩⟩
  · rw [row1_dark htwo (by simp [hext]), darkRow_get s hc (by omega)]
  · rw [row1_dark (honeLine hext) fun _ => hlow, darkRow_get s hc (by omega)]
  · have hext : s.extFont = false := Bool.eq_false_iff.2 fun hext => hone ⟨htwo, hext⟩
    have hc40 : c < 40 := lw_of_twoLine htwo ▸ hc
    obtain rfl : 64 + shiftedColumn s 40 c = a := Option.some.inj ((grid1_source_twoLine htwo hc).symm.trans ha)
    rw [row1_twoLine htwo hext]
    exact drawRow_dot (cells1_get s htwo hc40) (secondAddress_valid htwo hc40) hon hoff hb y
  · rw [grid1_source_extended (honeLine hext) hext, grid0_source s hc] at ha
    obtain rfl : shiftedColumn s s.lw c = a := Option.some.inj ha
    rw [row1_borrowed (honeLine hext) hext hhigh]
    exact drawRow_dot (cells0_get s hc) (firstAddress_valid s hc) hon hoff hb (8 + y)

/-- Settles O47: the power gate blanks the rows and touches nothing else. -/
theorem unpoweredRenderIsDark : Obligations.UnpoweredRenderIsDark := by
  intro s t u hp ht hu
  rw [render_eq_next ht, render_eq_next hu]
  exact ⟨grids_dark_of_unpowered hp, rfl, rfl, rfl, rfl⟩

end Proofs
end Sys2Proof
end

section
/-! PROOFS. What the grids do not depend on (43_rendering.md R261, R267, R270 to R272): Render reads the state through the
cells of the two lines, the rows of the cells, and the mode. -/

namespace Sys2Proof
namespace Proofs

open Sys2Proof.Machine Sys2Proof.Safety Sys2Proof.Laws

/-- R277: two states of one mode whose lines have the same cells, drawn alike, render to the same grids. -/
theorem renderGrids_congr {s t : State} (hcells0 : cells0 t = cells0 s) (hcells1 : cells1 t = cells1 s)
    (hrow : ∀ c r, cellRow t c r = cellRow s c r) (htwo : t.twoLine = s.twoLine) (hext : t.extFont = s.extFont)
    (hpwr : t.pwr = s.pwr) (hcfg : t.cfg = s.cfg) : renderGrids t = renderGrids s := by
  have hdraw : drawRow t = drawRow s := by
    funext cells r
    simp only [drawRow, hrow, hcfg]
  have hdark : darkRow t = darkRow s := by simp only [darkRow, State.lw, htwo, hcfg]
  have hsecond : row1 t = row1 s := by
    funext c0 c1 y
    simp only [row1, borrowedRow, hdraw, hdark, htwo, hext]
  rw [renderGrids_eq, renderGrids_eq]
  simp only [grids, drawGrids, row0, gatePower, src1, State.lw, hcells0, hcells1, hdraw, hdark, hsecond, htwo, hext, hpwr]

/-- Settles O48: with the display off the blank code is drawn at every address (R267). -/
theorem displayOffHidesDdram : Obligations.DisplayOffHidesDdram := by
  intro s m hoff
  have hcell : cellAt { s with ddram := m } = cellAt s := by
    funext a
    simp [cellAt, codeAt, hoff]
  refine renderGrids_congr ?_ ?_ (fun _ _ => rfl) rfl rfl rfl rfl
  · simp only [cells0, hcell]
    rfl
  · simp only [cells1, hcell]
    rfl

/-- R270: while CGRAM is addressed a cell's rows are its glyph's. -/
theorem cellRow_of_addrCg {s : State} (h : s.addrCg = true) (c : Cell) (r : Nat) :
    cellRow s c r = glyphRow s c.code r := by
  simp [cellRow, cursorHere, h]

/-- Settles O49: a cell's rows are its glyph's on both sides. -/
theorem noCursorWhileCgramIsAddressed : Obligations.NoCursorWhileCgramIsAddressed := by
  intro s c b bl ac hcg
  refine renderGrids_congr rfl rfl (fun cell r => ?_) rfl rfl rfl rfl
  rw [cellRow_of_addrCg hcg]
  exact cellRow_of_addrCg (s := { s with dispC := c, dispB := b, blink := bl, ac := ac }) hcg cell r

/-- R272: BLINK is read with the blink enabled alone. -/
theorem overlayRow_blink {s : State} (h : s.dispB = false) (bl : Bool) (r : Nat) :
    overlayRow { s with blink := bl } r = overlayRow s r := by
  simp [overlayRow, h]

/-- Settles O50: the view determines the grids, and BLINK is read neither without the blink nor without a cursor cell. -/
theorem renderReadsOnlyItsView : Obligations.RenderReadsOnlyItsView := by
  refine ⟨fun s t h => by rw [renderGrids_eq, renderGrids_eq, grids_congr h], fun s bl h => ?_⟩
  obtain hB | hcg := h
  · refine renderGrids_congr rfl rfl (fun cell r => ?_) rfl rfl rfl rfl
    rw [cellRow, overlayRow_blink hB]
    rfl
  · exact noCursorWhileCgramIsAddressed s s.dispC s.dispB bl s.ac hcg

end Proofs
end Sys2Proof
end

section
/-! PROOFS. The blink clock and the faulted state (60_exceptions.md R304, R311). -/

namespace Sys2Proof
namespace Proofs

open Sys2Proof.Machine Sys2Proof.Laws

/-- Settles O9: the step takes the coming action, which is the blink clock's. -/
theorem blinkToggleWritesOnlyBlink : Obligations.BlinkToggleWritesOnlyBlink :=
  fun _ _ hf hi => step_input hf hi

/-- R304: an outcome that is a fault is what FAULT then holds. -/
theorem recordFault_fault {s : State} {o : Res} {r : Fault} (h : o = .fault r) : (recordFault s o).fault = some r := by
  subst h
  rfl

/-- A run of any machine ends at the first fault. -/
theorem run_of_step_fault {M : Host.Core} {s : M.State} {r : M.Fault} (h : M.step s = .fault r) (k : Nat) :
    M.run (k + 1) s = .fault r := by
  rw [Host.Core.run, h]

/-- Settles O10: FAULT holds the fault, and a faulted state has no step, so no run goes past it. -/
theorem faultIsFinal : Obligations.FaultIsFinal := by
  intro s r h
  have hfault : (recordFault s (step s)).fault = some r := recordFault_fault h
  exact ⟨hfault, run_of_step_fault (step_faulted hfault)⟩

end Proofs
end Sys2Proof
end

section
/-! PROOFS. Reset and construction (70_reset_and_hazards.md R340, R341): what Reset leaves from any state, and that the
constructed state, whose grids are written out by hand, is already what Reset and Render leave. -/

namespace Sys2Proof
namespace Proofs

open Sys2Proof.Machine Sys2Proof.Safety Sys2Proof.Laws

/-- R56, R341: in a CGRAM that lists nothing every cell holds its default byte. -/
theorem cgByte_of_unwritten {s : State} (h : s.cgram = []) (a : Fin 64) : cgByte s a = s.cfg.defaultCgram[a] := by
  have hlt : (a : Nat) < 64 := a.isLt
  simp [cgByte, h, Memory.read, cgramUnlisted, hlt]

/-- Settles O12: Reset renders the cleared state, whose memories list nothing. -/
theorem resetLeavesTheRulesValues : Obligations.ResetLeavesTheRulesValues := by
  intro s
  refine ⟨_, resetBlock_eq s, rfl, rfl, rfl, rfl, rfl, rfl, rfl, rfl, rfl, rfl, rfl, rfl, rfl, rfl, rfl, rfl, rfl, rfl,
    fun _ _ => rfl, cgByte_of_unwritten rfl, setGrids_rendered _, rfl, rfl, rfl, rfl, rfl, rfl, rfl, rfl, rfl, rfl⟩

/-- R263: without a display shift every column shows its own address. -/
theorem firstLine_of_unshifted {s : State} (h : s.shift = 0) : firstLine s = List.range s.lw := by
  have hcol : ∀ c ∈ List.range s.lw, shiftedColumn s s.lw c = c := fun c hc => by
    have hlt : (c : Int) < s.lw := Int.ofNat_lt.2 (List.mem_range.1 hc)
    rw [shiftedColumn, h, Int.sub_zero, Int.emod_eq_of_lt (Int.natCast_nonneg c) hlt, Int.toNat_natCast]
  exact (List.map_congr_left hcol).trans (List.map_id _)

/-- R275, R276: without power Render leaves dark grids with their sources. -/
theorem grids_of_unpowered {s : State} (hp : s.pwr = false) : grids s =
    (Grid.dark s.cfg.params.glyphWidth s.lw ((firstLine s).map some),
     Grid.dark s.cfg.params.glyphWidth s.lw (src1 s (cells0 s) (cells1 s))) := by
  have hgate (row : List Bool) : gatePower s row = darkRow s := if_neg (by simp [hp])
  have hsrc : (cells0 s).map (some ·.addr) = (firstLine s).map some := List.map_map
  simp only [grids, drawGrids, hgate, hsrc, List.map_const', List.length_range]
  rfl

/-- R340: the grids that construction writes are those that Render gives. -/
theorem grids_constructed (cfg : Config.Cfg) (b : Bool) :
    grids (State.constructed cfg b) = ((State.constructed cfg b).grid0, (State.constructed cfg b).grid1) := by
  rw [grids_of_unpowered rfl, firstLine_of_unshifted rfl]
  rfl

theorem render_constructed (cfg : Config.Cfg) (b : Bool) :
    render (State.constructed cfg b) = .next (State.constructed cfg b) := by
  rw [render_eq, grids_constructed]
  rfl

/-- R341: Reset clears what construction leaves clear, and then renders. -/
theorem resetBlock_constructed (cfg : Config.Cfg) (b : Bool) :
    resetBlock (State.constructed cfg b) = .next (State.constructed cfg b) :=
  render_constructed cfg b

/-- The constructed state meets the invariant, being what Reset leaves of it. -/
theorem inv_constructed (cfg : Config.Cfg) (b : Bool) : Inv (State.constructed cfg b) :=
  inv_resetBlock rfl (resetBlock_constructed cfg b)

/-- Settles O13: Reset and Render leave the constructed state as it is. -/
theorem constructionIsAFixpointOfReset : Obligations.ConstructionIsAFixpointOfReset := fun cfg b =>
  ⟨_, rfl, rfl, rfl, rfl, rfl, rfl, rfl, rfl, rfl, rfl,
    resetBlock_constructed cfg b, render_constructed cfg b, inv_constructed cfg b⟩

/-- Settles O53: the state after reset is a constructed one. -/
theorem resetMeetsTheInvariant : Obligations.ResetMeetsTheInvariant := inv_constructed ..

end Proofs
end Sys2Proof
end

section
/-! PROOFS. Reads after a write (70_reset_and_hazards.md R347): RB holds the cell that was addressed when the last committed
edge ended, so a read right after a data write gives the cell that AC moved to, and one after a set-address instruction
the cell re-addressed. -/

namespace Sys2Proof
namespace Proofs

open Sys2Proof.Machine Sys2Proof.Safety Sys2Proof.Laws

/-- R168: where a committed edge ends RB holds the addressed cell. -/
theorem addressed_of_finish {o : Res} {t : State} (h : finish o = .next t) : addressed t = .ok t.rb := by
  obtain ⟨u, rfl, hu⟩ := andThen_eq_next.1 h
  obtain ⟨v, hv, rfl⟩ := finish_eq_next hu
  exact hv

/-- R158, R174: what the rising edge of READ_DATA drives onto DB. -/
theorem exec_readData_rise_db (s : State) : ∃ u, exec (.readData .rising) s = .next u ∧ (¬ SplitRead s → u.db = s.rb) ∧
    (SplitRead s → u.db = onHighLane (if s.rdDataPhase then loNibble s.rb else hiNibble s.rb)) := by
  by_cases h : SplitRead s
  · cases hp : s.rdDataPhase with
    | false => exact ⟨_, exec_readData_rise_first h hp, fun hn => absurd h hn, fun _ => rfl⟩
    | true => exact ⟨_, exec_readData_rise_second h hp, fun hn => absurd h hn, fun _ => rfl⟩
  · exact ⟨_, exec_readData_rise_whole h, fun _ => rfl, fun hs => absurd hs h⟩

/-- Settles O39: the write ends with RB refreshed, and the read drives RB. -/
theorem readAfterWriteIsStale : Obligations.ReadAfterWriteIsStale := by
  intro s t hc ht
  obtain ⟨u, hu, hdb⟩ := exec_readData_rise_db t
  exact ⟨u, t.rb, hu, addressed_of_finish ((exec_writeData_commit hc).symm.trans ht), hdb⟩

/-- In 8-bit mode, what a read gives after the edge that commits an instruction which leaves the bus width: the cell that
the instruction left addressed. -/
theorem read_after_command {s : State} {i : Instr} {a : Addr} {v : Byte} (hfour : s.fourBit = false)
    (hi : decodeIR s.db = i) (hwide : (commandEffect i (commandState s)).fourBit = false)
    (ha : (commandEffect i (commandState s)).ac = a) (hv : addressed (commandEffect i (commandState s)) = .ok v) :
    ∃ u w, exec (.writeInstruction .falling) s = .next u ∧ u.ac = a ∧
      exec (.readData .rising) { u with rs := true, rw := true } = .next w ∧ w.db = v := by
  have hc : completesByte s = true := by simp [completesByte, hfour]
  have hbyte : committedByte s = s.db := by simp [committedByte, hfour]
  have hread : ¬ SplitRead { endState (commandEffect i (commandState s)) v with rs := true, rw := true } :=
    fun h => Bool.false_ne_true (hwide.symm.trans h.1)
  have hedge := instruction_eq hc
  rw [hbyte, hi, finish_of_ok hv] at hedge
  exact ⟨_, _, hedge, ha, exec_readData_rise_whole hread, rfl⟩

/-- R130: the byte of SET_CGRAM_ADDR, as a host makes it from the value of AC. -/
theorem decodeIR_or_cgramAddr {a : Addr} {b : BitVec 6} (hb : b.setWidth 7 = a) :
    decodeIR (0x40#8 ||| a.setWidth 8) = .setCgramAddr b := by
  have hbyte : 0x40#8 ||| (b.setWidth 7).setWidth 8 = 0b01#2 ++ b := rfl
  rw [← hb, hbyte, decodeIR_setCgramAddr]

/-- R131: the byte of SET_DDRAM_ADDR, in the same way. -/
theorem decodeIR_or_ddramAddr (a : Addr) : decodeIR (0x80#8 ||| a.setWidth 8) = .setDdramAddr a := by
  have hbyte : 0x80#8 ||| a.setWidth 8 = 0b1#1 ++ a := rfl
  rw [hbyte, decodeIR_setDdramAddr]

/-- R132: a CGRAM address in AC is a 6-bit one, zero-extended. -/
theorem exists_sixBits {a : Addr} (ha : a.toNat < 64) : ∃ b : BitVec 6, b.setWidth 7 = a :=
  ⟨a.setWidth 6, BitVec.eq_of_toNat_eq (by simp only [BitVec.toNat_setWidth]; omega)⟩

/-- R168, R197: the cell that SET_CGRAM_ADDR leaves addressed. -/
theorem addressed_setCgramAddr (b : BitVec 6) (s : State) :
    addressed (commandEffect (.setCgramAddr b) s) = .ok (cgByte s (b.setWidth 7).toNat) := by
  have hlt : (b.setWidth 7).toNat < 64 := by rw [BitVec.toNat_setWidth]; omega
  exact addressed_cgram rfl hlt

/-- R198, R236: SET_DDRAM_ADDR loads a valid address unchanged, but for TOP with GE. -/
theorem setDdramAddr_ac_of_valid {a : Addr} {s : State} (ha : validDD a.toNat s.twoLine = true)
    (htop : s.cfg.params.clampCmp = .gt ∨ a.toNat ≠ s.top) : (commandEffect (.setDdramAddr a) s).ac = a := by
  have hmask : (a.toNat : Int) % 128 = a.toNat := by omega
  exact BitVec.eq_of_toNat_eq (normDD_of_valid hmask ha htop _)

/-- R168: the cell that SET_DDRAM_ADDR leaves addressed, where it loads its operand unchanged. -/
theorem addressed_setDdramAddr {a : Addr} {s : State} (h : (commandEffect (.setDdramAddr a) s).ac = a) :
    addressed (commandEffect (.setDdramAddr a) s) = ddramRead s a.toNat := by
  have hread : addressed (commandEffect (.setDdramAddr a) s) =
      ddramRead s (commandEffect (.setDdramAddr a) s).ac.toNat := rfl
  rw [hread, h]

/-- The state with a byte for IR on the bus. -/
def onInstructionBus (b : Byte) (s : State) : State := { s with rs := false, db := b }

/-- Settles O40: the write stores the byte at AC (O34), the set-address instruction leaves that cell addressed again, and
the read gives it. -/
theorem readdressedCellReadsBack : Obligations.ReaddressedCellReadsBack := by
  intro s hfour hac hdd hcgram htop
  have hc : completesByte s = true := by simp [completesByte, hfour]
  have hbyte : committedData s = s.db := by simp [committedData, hfour]
  obtain ⟨t, ht, hstoreCg, hstoreDd, -, -, -, -, hframe⟩ := writeDataStoresAtAc s hc hac hdd hcgram
  rw [hbyte] at hstoreCg hstoreDd
  have hwide : t.fourBit = false := (congrArg State.fourBit hframe).trans hfour
  cases hcg : s.addrCg with
  | true =>
    obtain ⟨hstored, -⟩ := hstoreCg hcg
    obtain ⟨b, hb⟩ := exists_sixBits ((acValid_cg hcg).1 hac)
    rw [← hb] at hstored
    obtain ⟨u, w, hback⟩ := read_after_command (s := onInstructionBus (0x40#8 ||| s.ac.setWidth 8) t) hwide
      (decodeIR_or_cgramAddr hb) hwide hb ((addressed_setCgramAddr b _).trans (congrArg Except.ok hstored))
    exact ⟨t, u, w, ht, hback⟩
  | false =>
    obtain ⟨hstored, -⟩ := hstoreDd hcg
    have htwo : t.twoLine = s.twoLine := by rw [hframe]
    have hcfg : t.cfg = s.cfg := by rw [hframe]
    have hvalid : validDD s.ac.toNat t.twoLine = true := by rw [htwo]; exact (acValid_dd hcg).1 hac
    have hoff : t.cfg.params.clampCmp = .gt ∨ s.ac.toNat ≠ t.top := by
      rw [hcfg, State.top, htwo]
      exact htop.resolve_left (by simp [hcg])
    have hload := setDdramAddr_ac_of_valid
      (s := commandState (onInstructionBus (0x80#8 ||| s.ac.setWidth 8) t)) hvalid hoff
    obtain ⟨u, w, hback⟩ := read_after_command (s := onInstructionBus (0x80#8 ||| s.ac.setWidth 8) t) hwide
      (decodeIR_or_ddramAddr s.ac) hwide hload ((addressed_setDdramAddr hload).trans hstored)
    exact ⟨t, u, w, ht, hback⟩

end Proofs
end Sys2Proof
end
